-- ==== Sys2Proof/Word.lean ====
section
/-! DEFINITION. The word types of the machine (spec/00_scope.md R8: every value is unsigned, of the width given). -/

namespace Sys2Proof

/-- A byte: a general register, a memory cell, a timer, the constant NN (R8, R15, R36). -/
abbrev Byte := BitVec 8

/-- A 16-bit word: an opcode, PC, I or a stack entry (R8). -/
abbrev Word := BitVec 16

/-- The 12-bit address constant NNN of an instruction (R54, R56). -/
abbrev Addr := BitVec 12

/-- A 4-bit field of an instruction (R54). -/
abbrev Nibble := BitVec 4

/-- The number of a general register V0..VF, as the 4-bit fields X and Y give it (R15). -/
abbrev RegIx := BitVec 4

/-- The 80 font bytes, the block's parameter FONT (R40). -/
abbrev Font := Vector Byte 80

end Sys2Proof
end

