-- ==== Sys2Proof/Config.lean ====
section
/-! DEFINITION. What is fixed for one machine: the parameter values of spec/00_scope.md R8, and the values
the spec leaves OPEN, as constants with no body (log entries 2, 3 and 10). -/

namespace Sys2Proof.Config

/-- MEM_SIZE (R8, R36): addresses 0..4095 exist. -/
abbrev memSize : Nat := 4096

/-- PROG_START (R8): the reset PC and the ROM load offset. -/
abbrev progStart : Nat := 512

/-- FONT_SIZE (R8): 16 glyphs of 5 bytes at address 0. -/
abbrev fontSize : Nat := 80

/-- GLYPH_BYTES (R8). -/
abbrev glyphBytes : Nat := 5

/-- ROM_MAX (R8): 4096 - 512. -/
abbrev romMax : Nat := 3584

/-- FB_SIZE (R8): 64 x 32 pixels of one bit. -/
abbrev fbSize : Nat := 2048

/-- FB_WIDTH (R8). -/
abbrev fbWidth : Nat := 64

/-- FONT (R40, decision D11): OPEN. The spec gives no byte of it, so nothing is known of this constant
(log entry 2). -/
opaque font : Font

/-- RND (R93, decision D12): OPEN, one draw for each execution of CXNN. The argument is the number of free
values drawn before (`State.fresh`), so that no two draws are forced to agree (log entry 3). -/
opaque freeRnd : Nat → Byte

/-- What a failed LoadROM leaves at an address of 512..4095 (R131: "any values"), by the number of free
values drawn before and the address (log entry 10). -/
opaque freeLoadByte : Nat → Nat → Byte

end Sys2Proof.Config
end

