-- ==== Sys2Proof/Syntax.lean ====
section
/-! DEFINITION. The instructions: one constructor for each of the 34 rows of spec/30_encoding.md R58 (the rows of
spec/opcode_table.json), in the table's order. Every field has the width R54 gives it, so a term of
`Instr` is one line of the assembler (R63) and no ill-formed term exists; what an assembler line must
satisfy to be one stands in WellFormed.lean. -/

namespace Sys2Proof

inductive Instr where
  /-- 00E0, `CLS` (R67). -/
  | cls
  /-- 00EE, `RET` (R69). -/
  | ret
  /-- 1NNN, `JP nnn` (R70). -/
  | jp (nnn : Addr)
  /-- 2NNN, `CALL nnn` (R71). -/
  | call (nnn : Addr)
  /-- 3XNN, `SE Vx, nn` (R74). -/
  | seImm (x : RegIx) (nn : Byte)
  /-- 4XNN, `SNE Vx, nn` (R75). -/
  | sneImm (x : RegIx) (nn : Byte)
  /-- 5XY0, `SE Vx, Vy` (R76). -/
  | seReg (x y : RegIx)
  /-- 6XNN, `LD Vx, nn` (R82). -/
  | ldImm (x : RegIx) (nn : Byte)
  /-- 7XNN, `ADD Vx, nn` (R83). -/
  | addImm (x : RegIx) (nn : Byte)
  /-- 8XY0, `LD Vx, Vy` (R84). -/
  | ldReg (x y : RegIx)
  /-- 8XY1, `OR Vx, Vy` (R85). -/
  | orReg (x y : RegIx)
  /-- 8XY2, `AND Vx, Vy` (R86). -/
  | andReg (x y : RegIx)
  /-- 8XY3, `XOR Vx, Vy` (R87). -/
  | xorReg (x y : RegIx)
  /-- 8XY4, `ADD Vx, Vy` (R88). -/
  | addReg (x y : RegIx)
  /-- 8XY5, `SUB Vx, Vy` (R89). -/
  | subReg (x y : RegIx)
  /-- 8XY6, `SHR Vx, Vy` (R90); Y is encoded and not read. -/
  | shr (x y : RegIx)
  /-- 8XY7, `SUBN Vx, Vy` (R91). -/
  | subn (x y : RegIx)
  /-- 8XYE, `SHL Vx, Vy` (R92); Y is encoded and not read. -/
  | shl (x y : RegIx)
  /-- 9XY0, `SNE Vx, Vy` (R77). -/
  | sneReg (x y : RegIx)
  /-- ANNN, `LD I, nnn` (R94). -/
  | ldI (nnn : Addr)
  /-- BNNN, `JP V0, nnn` (R72). -/
  | jpV0 (nnn : Addr)
  /-- CXNN, `RND Vx, nn` (R93). -/
  | rnd (x : RegIx) (nn : Byte)
  /-- DXYN, `DRW Vx, Vy, n` (R68). -/
  | drw (x y : RegIx) (n : Nibble)
  /-- EX9E, `SKP Vx` (R78). -/
  | skp (x : RegIx)
  /-- EXA1, `SKNP Vx` (R79). -/
  | sknp (x : RegIx)
  /-- FX07, `LD Vx, DT` (R101). -/
  | ldVxDT (x : RegIx)
  /-- FX0A, `LD Vx, K` (R102). -/
  | ldVxK (x : RegIx)
  /-- FX15, `LD DT, Vx` (R103). -/
  | ldDTVx (x : RegIx)
  /-- FX18, `LD ST, Vx` (R104). -/
  | ldSTVx (x : RegIx)
  /-- FX1E, `ADD I, Vx` (R95). -/
  | addI (x : RegIx)
  /-- FX29, `LD F, Vx` (R96). -/
  | ldF (x : RegIx)
  /-- FX33, `LD B, Vx` (R97). -/
  | ldB (x : RegIx)
  /-- FX55, `LD [I], Vx` (R98). -/
  | storeRegs (x : RegIx)
  /-- FX65, `LD Vx, [I]` (R99). -/
  | loadRegs (x : RegIx)
  deriving DecidableEq, Repr

/-- The conventional mnemonics of R58's syntax column (R62, decision D20). -/
inductive Mnemonic where
  | CLS | RET | JP | CALL | SE | SNE | LD | ADD | OR | AND | XOR | SUB | SHR | SUBN | SHL | RND | DRW | SKP | SKNP
  deriving DecidableEq, Repr

/-- The operands an assembler line may name (R62): a register by its number, a constant, or one of the
literal keywords `I`, `DT`, `ST`, `K`, `F`, `B` and `[I]`. -/
inductive Operand where
  | reg (number : Nat)
  | const (value : Nat)
  | kwI | kwDT | kwST | kwK | kwF | kwB | kwAtI
  deriving DecidableEq, Repr

/-- A line of the assembler, as its tokens: a mnemonic and its operands in order (R62). -/
structure Line where
  mnemonic : Mnemonic
  operands : List Operand
  deriving DecidableEq, Repr

end Sys2Proof
end

