-- ==== Sys2Proof/WellFormed.lean ====
section
/-! DEFINITION. Which assembler lines are instructions (spec/30_encoding.md R62, R63): the operands are of a form
of R58's syntax column, a register number is at most 15 and a constant fits its field. `Line.toInstr`
gives the one instruction a well-formed line stands for, `Instr.toLine` the line a disassembler writes. -/

namespace Sys2Proof

/-- A register number names a register V0..VF (R62). -/
def regField (n : Nat) : Option RegIx := if n < 16 then some (BitVec.ofNat 4 n) else none

/-- `nn` is a constant 0..255 (R62). -/
def byteField (n : Nat) : Option Byte := if n < 256 then some (BitVec.ofNat 8 n) else none

/-- `nnn` is an address 0..4095 (R62). -/
def addrField (n : Nat) : Option Addr := if n < 4096 then some (BitVec.ofNat 12 n) else none

/-- `n` is a constant 0..15 (R62). -/
def nibbleField (n : Nat) : Option Nibble := if n < 16 then some (BitVec.ofNat 4 n) else none

/-- The instruction with operands X and NN, when both are in range. -/
def lineXNN (f : RegIx → Byte → Instr) (x nn : Nat) : Option Instr :=
  match regField x, byteField nn with
  | some x, some nn => some (f x nn)
  | _, _ => none

/-- The instruction with operands X and Y, when both are in range. -/
def lineXY (f : RegIx → RegIx → Instr) (x y : Nat) : Option Instr :=
  match regField x, regField y with
  | some x, some y => some (f x y)
  | _, _ => none

/-- The instruction an assembler line stands for (R62). `SHR Vx` and `SHL Vx` encode Y = 0. -/
def Line.toInstr (l : Line) : Option Instr :=
  match l.mnemonic, l.operands with
  | .CLS, [] => some .cls
  | .RET, [] => some .ret
  | .JP, [.const a] => (addrField a).map .jp
  | .JP, [.reg 0, .const a] => (addrField a).map .jpV0
  | .CALL, [.const a] => (addrField a).map .call
  | .SE, [.reg x, .const k] => lineXNN .seImm x k
  | .SE, [.reg x, .reg y] => lineXY .seReg x y
  | .SNE, [.reg x, .const k] => lineXNN .sneImm x k
  | .SNE, [.reg x, .reg y] => lineXY .sneReg x y
  | .LD, [.reg x, .const k] => lineXNN .ldImm x k
  | .LD, [.reg x, .reg y] => lineXY .ldReg x y
  | .LD, [.kwI, .const a] => (addrField a).map .ldI
  | .LD, [.reg x, .kwDT] => (regField x).map .ldVxDT
  | .LD, [.reg x, .kwK] => (regField x).map .ldVxK
  | .LD, [.kwDT, .reg x] => (regField x).map .ldDTVx
  | .LD, [.kwST, .reg x] => (regField x).map .ldSTVx
  | .LD, [.kwF, .reg x] => (regField x).map .ldF
  | .LD, [.kwB, .reg x] => (regField x).map .ldB
  | .LD, [.kwAtI, .reg x] => (regField x).map .storeRegs
  | .LD, [.reg x, .kwAtI] => (regField x).map .loadRegs
  | .ADD, [.reg x, .const k] => lineXNN .addImm x k
  | .ADD, [.reg x, .reg y] => lineXY .addReg x y
  | .ADD, [.kwI, .reg x] => (regField x).map .addI
  | .OR, [.reg x, .reg y] => lineXY .orReg x y
  | .AND, [.reg x, .reg y] => lineXY .andReg x y
  | .XOR, [.reg x, .reg y] => lineXY .xorReg x y
  | .SUB, [.reg x, .reg y] => lineXY .subReg x y
  | .SHR, [.reg x, .reg y] => lineXY .shr x y
  | .SHR, [.reg x] => lineXY .shr x 0
  | .SUBN, [.reg x, .reg y] => lineXY .subn x y
  | .SHL, [.reg x, .reg y] => lineXY .shl x y
  | .SHL, [.reg x] => lineXY .shl x 0
  | .RND, [.reg x, .const k] => lineXNN .rnd x k
  | .DRW, [.reg x, .reg y, .const n] =>
    match regField x, regField y, nibbleField n with
    | some x, some y, some n => some (.drw x y n)
    | _, _, _ => none
  | .SKP, [.reg x] => (regField x).map .skp
  | .SKNP, [.reg x] => (regField x).map .sknp
  | _, _ => none

/-- A line is well formed when it stands for an instruction. -/
def Line.wellFormed (l : Line) : Bool := l.toInstr.isSome

/-- The line of an instruction (R62's syntax): what a disassembler writes for its word. -/
def Instr.toLine : Instr → Line
  | .cls => ⟨.CLS, []⟩
  | .ret => ⟨.RET, []⟩
  | .jp a => ⟨.JP, [.const a.toNat]⟩
  | .call a => ⟨.CALL, [.const a.toNat]⟩
  | .seImm x k => ⟨.SE, [.reg x.toNat, .const k.toNat]⟩
  | .sneImm x k => ⟨.SNE, [.reg x.toNat, .const k.toNat]⟩
  | .seReg x y => ⟨.SE, [.reg x.toNat, .reg y.toNat]⟩
  | .ldImm x k => ⟨.LD, [.reg x.toNat, .const k.toNat]⟩
  | .addImm x k => ⟨.ADD, [.reg x.toNat, .const k.toNat]⟩
  | .ldReg x y => ⟨.LD, [.reg x.toNat, .reg y.toNat]⟩
  | .orReg x y => ⟨.OR, [.reg x.toNat, .reg y.toNat]⟩
  | .andReg x y => ⟨.AND, [.reg x.toNat, .reg y.toNat]⟩
  | .xorReg x y => ⟨.XOR, [.reg x.toNat, .reg y.toNat]⟩
  | .addReg x y => ⟨.ADD, [.reg x.toNat, .reg y.toNat]⟩
  | .subReg x y => ⟨.SUB, [.reg x.toNat, .reg y.toNat]⟩
  | .shr x y => ⟨.SHR, [.reg x.toNat, .reg y.toNat]⟩
  | .subn x y => ⟨.SUBN, [.reg x.toNat, .reg y.toNat]⟩
  | .shl x y => ⟨.SHL, [.reg x.toNat, .reg y.toNat]⟩
  | .sneReg x y => ⟨.SNE, [.reg x.toNat, .reg y.toNat]⟩
  | .ldI a => ⟨.LD, [.kwI, .const a.toNat]⟩
  | .jpV0 a => ⟨.JP, [.reg 0, .const a.toNat]⟩
  | .rnd x k => ⟨.RND, [.reg x.toNat, .const k.toNat]⟩
  | .drw x y n => ⟨.DRW, [.reg x.toNat, .reg y.toNat, .const n.toNat]⟩
  | .skp x => ⟨.SKP, [.reg x.toNat]⟩
  | .sknp x => ⟨.SKNP, [.reg x.toNat]⟩
  | .ldVxDT x => ⟨.LD, [.reg x.toNat, .kwDT]⟩
  | .ldVxK x => ⟨.LD, [.reg x.toNat, .kwK]⟩
  | .ldDTVx x => ⟨.LD, [.kwDT, .reg x.toNat]⟩
  | .ldSTVx x => ⟨.LD, [.kwST, .reg x.toNat]⟩
  | .addI x => ⟨.ADD, [.kwI, .reg x.toNat]⟩
  | .ldF x => ⟨.LD, [.kwF, .reg x.toNat]⟩
  | .ldB x => ⟨.LD, [.kwB, .reg x.toNat]⟩
  | .storeRegs x => ⟨.LD, [.kwAtI, .reg x.toNat]⟩
  | .loadRegs x => ⟨.LD, [.reg x.toNat, .kwAtI]⟩

end Sys2Proof
end

