-- ==== Sys2Proof/Decode.lean ====
section
/-! DEFINITION. Decoding and encoding (spec/30_encoding.md): the fields of R54, the decoder of R57, the encoder
and the opcode map of R58, and the byte order of a stored word (spec/20_memory.md R43). -/

namespace Sys2Proof

/-! ## Fields of a word (R54) -/

/-- fam = op[15:12]. -/
def opFam (w : Word) : Nibble := w.extractLsb' 12 4
/-- X = op[11:8]. -/
def opX (w : Word) : RegIx := w.extractLsb' 8 4
/-- Y = op[7:4]. -/
def opY (w : Word) : RegIx := w.extractLsb' 4 4
/-- N (and fn) = op[3:0]. -/
def opN (w : Word) : Nibble := w.extractLsb' 0 4
/-- NN (and fn8) = op[7:0]. -/
def opNN (w : Word) : Byte := w.extractLsb' 0 8
/-- NNN = op[11:0]. -/
def opNNN (w : Word) : Addr := w.extractLsb' 0 12

/-! ## Decoding (R57) -/

/-- Family 8's secondary dispatch, on op[3:0]. -/
def decodeFamily8 (x y : RegIx) (fn : Nat) : Option Instr :=
  match fn with
  | 0x0 => some (.ldReg x y)
  | 0x1 => some (.orReg x y)
  | 0x2 => some (.andReg x y)
  | 0x3 => some (.xorReg x y)
  | 0x4 => some (.addReg x y)
  | 0x5 => some (.subReg x y)
  | 0x6 => some (.shr x y)
  | 0x7 => some (.subn x y)
  | 0xE => some (.shl x y)
  | _ => none

/-- Family F's secondary dispatch, on op[7:0]. -/
def decodeFamilyF (x : RegIx) (fn8 : Nat) : Option Instr :=
  match fn8 with
  | 0x07 => some (.ldVxDT x)
  | 0x0A => some (.ldVxK x)
  | 0x15 => some (.ldDTVx x)
  | 0x18 => some (.ldSTVx x)
  | 0x1E => some (.addI x)
  | 0x29 => some (.ldF x)
  | 0x33 => some (.ldB x)
  | 0x55 => some (.storeRegs x)
  | 0x65 => some (.loadRegs x)
  | _ => none

/-- The instruction of a word, or `none` for an UNKNOWN word (R57, R59): dispatch on op[15:12], then every
bit the row's pattern fixes must match. -/
def decode (w : Word) : Option Instr :=
  match (opFam w).toNat with
  | 0x0 => if opNNN w = 0x0E0#12 then some .cls else if opNNN w = 0x0EE#12 then some .ret else none
  | 0x1 => some (.jp (opNNN w))
  | 0x2 => some (.call (opNNN w))
  | 0x3 => some (.seImm (opX w) (opNN w))
  | 0x4 => some (.sneImm (opX w) (opNN w))
  | 0x5 => if opN w = 0x0#4 then some (.seReg (opX w) (opY w)) else none
  | 0x6 => some (.ldImm (opX w) (opNN w))
  | 0x7 => some (.addImm (opX w) (opNN w))
  | 0x8 => decodeFamily8 (opX w) (opY w) (opN w).toNat
  | 0x9 => if opN w = 0x0#4 then some (.sneReg (opX w) (opY w)) else none
  | 0xA => some (.ldI (opNNN w))
  | 0xB => some (.jpV0 (opNNN w))
  | 0xC => some (.rnd (opX w) (opNN w))
  | 0xD => some (.drw (opX w) (opY w) (opN w))
  | 0xE =>
    if opNN w = 0x9E#8 then some (.skp (opX w)) else if opNN w = 0xA1#8 then some (.sknp (opX w)) else none
  | _ => decodeFamilyF (opX w) (opNN w).toNat

/-- Why a sequence of bytes is no instruction. -/
inductive DecodeReject where
  /-- Fewer than the two bytes every instruction has (R61). -/
  | truncated
  /-- The word is UNKNOWN (R59): it matches no row of R58. -/
  | unknown (w : Word)
  deriving DecidableEq, Repr

/-- The word two consecutive bytes make: big-endian, `(hi << 8) | lo` (R43, R55). -/
def wordOfBytes (hi lo : Byte) : Word := hi ++ lo

/-- A word as memory holds it, the byte of bits 15:8 at the lower address (R43). -/
def bytesOfWord (w : Word) : List Byte := [w.extractLsb' 8 8, w.extractLsb' 0 8]

/-- The decoder on bytes: the instruction the first two stand for and the bytes after it, or why there is
none. -/
def decodeBytes : List Byte → Except DecodeReject (Instr × List Byte)
  | hi :: lo :: rest =>
    match decode (wordOfBytes hi lo) with
    | some i => .ok (i, rest)
    | none => .error (.unknown (wordOfBytes hi lo))
  | _ => .error .truncated

/-- What a disassembler writes for a word (R62): the line of a known word, or `.word` and the number. -/
def disassemble (w : Word) : Line ⊕ Word :=
  match decode w with
  | some i => .inl i.toLine
  | none => .inr w

/-- The word of an instruction given as the opcode table numbers its bits: the bits above `nbits`, and
those past the one word an instruction has (R61), are left out. -/
def tableWord (nbits w : Nat) : Word := BitVec.ofNat 16 (w % 2 ^ nbits)

/-- The instruction the decoder reads from the bits `w` of a row of spec/opcode_table.json: the word is laid
out as memory holds it and given to the decoder on bytes. -/
def decodeTableWord (nbits w : Nat) : Option Instr :=
  match decodeBytes (bytesOfWord (tableWord nbits w)) with
  | .ok (i, _) => some i
  | .error _ => none

/-! ## Encoding (R54's formats, R58's match column) -/

/-- The word of an instruction. -/
def encode : Instr → Word
  | .cls => 0x00E0#16
  | .ret => 0x00EE#16
  | .jp nnn => 0x1#4 ++ nnn
  | .call nnn => 0x2#4 ++ nnn
  | .seImm x nn => 0x3#4 ++ x ++ nn
  | .sneImm x nn => 0x4#4 ++ x ++ nn
  | .seReg x y => 0x5#4 ++ x ++ y ++ 0x0#4
  | .ldImm x nn => 0x6#4 ++ x ++ nn
  | .addImm x nn => 0x7#4 ++ x ++ nn
  | .ldReg x y => 0x8#4 ++ x ++ y ++ 0x0#4
  | .orReg x y => 0x8#4 ++ x ++ y ++ 0x1#4
  | .andReg x y => 0x8#4 ++ x ++ y ++ 0x2#4
  | .xorReg x y => 0x8#4 ++ x ++ y ++ 0x3#4
  | .addReg x y => 0x8#4 ++ x ++ y ++ 0x4#4
  | .subReg x y => 0x8#4 ++ x ++ y ++ 0x5#4
  | .shr x y => 0x8#4 ++ x ++ y ++ 0x6#4
  | .subn x y => 0x8#4 ++ x ++ y ++ 0x7#4
  | .shl x y => 0x8#4 ++ x ++ y ++ 0xE#4
  | .sneReg x y => 0x9#4 ++ x ++ y ++ 0x0#4
  | .ldI nnn => 0xA#4 ++ nnn
  | .jpV0 nnn => 0xB#4 ++ nnn
  | .rnd x nn => 0xC#4 ++ x ++ nn
  | .drw x y n => 0xD#4 ++ x ++ y ++ n
  | .skp x => 0xE#4 ++ x ++ 0x9E#8
  | .sknp x => 0xE#4 ++ x ++ 0xA1#8
  | .ldVxDT x => 0xF#4 ++ x ++ 0x07#8
  | .ldVxK x => 0xF#4 ++ x ++ 0x0A#8
  | .ldDTVx x => 0xF#4 ++ x ++ 0x15#8
  | .ldSTVx x => 0xF#4 ++ x ++ 0x18#8
  | .addI x => 0xF#4 ++ x ++ 0x1E#8
  | .ldF x => 0xF#4 ++ x ++ 0x29#8
  | .ldB x => 0xF#4 ++ x ++ 0x33#8
  | .storeRegs x => 0xF#4 ++ x ++ 0x55#8
  | .loadRegs x => 0xF#4 ++ x ++ 0x65#8

/-! ## The opcode map as data (R58) -/

/-- One row of R58: a word is of the row when `w & mask = bits`. -/
structure Row where
  number : Nat
  bits : Word
  mask : Word
  mnemonic : Mnemonic
  deriving DecidableEq, Repr

/-- R58's rows 1 to 11. -/
def opcodeMapLow : List Row :=
  [⟨1, 0x00E0, 0xFFFF, .CLS⟩, ⟨2, 0x00EE, 0xFFFF, .RET⟩, ⟨3, 0x1000, 0xF000, .JP⟩,
   ⟨4, 0x2000, 0xF000, .CALL⟩, ⟨5, 0x3000, 0xF000, .SE⟩, ⟨6, 0x4000, 0xF000, .SNE⟩,
   ⟨7, 0x5000, 0xF00F, .SE⟩, ⟨8, 0x6000, 0xF000, .LD⟩, ⟨9, 0x7000, 0xF000, .ADD⟩,
   ⟨10, 0x8000, 0xF00F, .LD⟩, ⟨11, 0x8001, 0xF00F, .OR⟩]

/-- R58's rows 12 to 23. -/
def opcodeMapMid : List Row :=
  [⟨12, 0x8002, 0xF00F, .AND⟩, ⟨13, 0x8003, 0xF00F, .XOR⟩, ⟨14, 0x8004, 0xF00F, .ADD⟩,
   ⟨15, 0x8005, 0xF00F, .SUB⟩, ⟨16, 0x8006, 0xF00F, .SHR⟩, ⟨17, 0x8007, 0xF00F, .SUBN⟩,
   ⟨18, 0x800E, 0xF00F, .SHL⟩, ⟨19, 0x9000, 0xF00F, .SNE⟩, ⟨20, 0xA000, 0xF000, .LD⟩,
   ⟨21, 0xB000, 0xF000, .JP⟩, ⟨22, 0xC000, 0xF000, .RND⟩, ⟨23, 0xD000, 0xF000, .DRW⟩]

/-- R58's rows 24 to 34. -/
def opcodeMapHigh : List Row :=
  [⟨24, 0xE09E, 0xF0FF, .SKP⟩, ⟨25, 0xE0A1, 0xF0FF, .SKNP⟩, ⟨26, 0xF007, 0xF0FF, .LD⟩,
   ⟨27, 0xF00A, 0xF0FF, .LD⟩, ⟨28, 0xF015, 0xF0FF, .LD⟩, ⟨29, 0xF018, 0xF0FF, .LD⟩,
   ⟨30, 0xF01E, 0xF0FF, .ADD⟩, ⟨31, 0xF029, 0xF0FF, .LD⟩, ⟨32, 0xF033, 0xF0FF, .LD⟩,
   ⟨33, 0xF055, 0xF0FF, .LD⟩, ⟨34, 0xF065, 0xF0FF, .LD⟩]

/-- The 34 rows of R58, in the table's order. -/
def opcodeMap : List Row := opcodeMapLow ++ opcodeMapMid ++ opcodeMapHigh

/-- A word matches a row: every bit the row's pattern fixes is as the pattern has it (R58). -/
def Row.admits (r : Row) (w : Word) : Bool := w &&& r.mask == r.bits

/-- The number of an instruction's row in R58. -/
def Instr.rowNumber : Instr → Nat
  | .cls => 1 | .ret => 2 | .jp _ => 3 | .call _ => 4 | .seImm _ _ => 5 | .sneImm _ _ => 6
  | .seReg _ _ => 7 | .ldImm _ _ => 8 | .addImm _ _ => 9 | .ldReg _ _ => 10 | .orReg _ _ => 11
  | .andReg _ _ => 12 | .xorReg _ _ => 13 | .addReg _ _ => 14 | .subReg _ _ => 15 | .shr _ _ => 16
  | .subn _ _ => 17 | .shl _ _ => 18 | .sneReg _ _ => 19 | .ldI _ => 20 | .jpV0 _ => 21 | .rnd _ _ => 22
  | .drw _ _ _ => 23 | .skp _ => 24 | .sknp _ => 25 | .ldVxDT _ => 26 | .ldVxK _ => 27 | .ldDTVx _ => 28
  | .ldSTVx _ => 29 | .addI _ => 30 | .ldF _ => 31 | .ldB _ => 32 | .storeRegs _ => 33 | .loadRegs _ => 34

end Sys2Proof
end

