-- ==== Sys2Proof/Machine/State.lean ====
section
/-! DEFINITION. The state of the block (spec/10_state.md), plain data, and its value after reset (R34, R128).
The fields after `phase` are the interface of a step: its inputs (R30), its outputs (R32, R33) and the
count of free values drawn (log entries 3 to 5). -/

namespace Sys2Proof.Machine

/-- The five causes of a fault (spec/60_exceptions.md R105). Each is TAKEN as R109 describes: the meaning that
raises it goes on to a next state that holds the fault record, and the block is halted from then on. So
none of them is ever the answer of a step (log entry 1, safe). -/
inductive Fault where
  /-- Code 1, raised by the fetch of a step with PC > 4094 (R55). Safe: the spec's own fault, decision D5. -/
  | fetchBounds
  /-- Code 2, raised by DXYN (N > 0), FX33, FX55 and FX65 when their bytes leave 0..4095 (R68, R97 to R99).
  Safe: decision D5. -/
  | dataBounds
  /-- Code 3, raised by 2NNN with SP = 16 (R71, R106). Safe: decision D6. -/
  | stackOverflow
  /-- Code 4, raised by 00EE with SP = 0 (R69, R106). Safe: decision D6. -/
  | stackUnderflow
  /-- Code 5, raised by EX9E and EXA1 with V[X] > 15 (R78, R79). Safe: decision D7. -/
  | keyIndex
  deriving DecidableEq, Repr

/-- The number R105 gives a cause. -/
def Fault.code : Fault → Nat
  | .fetchBounds => 1
  | .dataBounds => 2
  | .stackOverflow => 3
  | .stackUnderflow => 4
  | .keyIndex => 5

/-- Why a step is refused. -/
inductive Refusal where
  /-- Raised by an arm of `exec` whose instruction has no meaning yet (no arm of this model). Safe. -/
  | notModelled (mnemonic : String)
  /-- Raised by `step` in load phase POISONED: "a Step in phase POISONED is refused until Reset" (R131). Safe. -/
  | poisoned
  deriving DecidableEq, Repr

/-- The fault record's tuple (R27): the cause, the PC and the opcode of the step (no opcode for a fetch fault), and
the address or key index outside its range. -/
structure FaultRecord where
  cause : Fault
  pc : Word
  opcode : Option Word
  info : Option Nat
  deriving DecidableEq, Repr

/-- The load phase (R35, R131): bookkeeping that decides which host operations are refused. -/
inductive LoadPhase where
  | boot | run | poisoned
  deriving DecidableEq, Repr

/-- An output record of a step (R33). -/
inductive Event where
  /-- The trace record (R124): PC, opcode, SP and V0..VF before the instruction runs. -/
  | trace (pc opcode : Word) (sp : Fin 17) (v : Vector Byte 16)
  /-- The word at PC is UNKNOWN (R107). -/
  | unknownOpcode (pc opcode : Word)
  /-- The sound timer is running and the step's sound_enable is 1 (R119). -/
  | alert
  /-- A fault was taken (R109). -/
  | fault (record : FaultRecord)
  deriving DecidableEq, Repr

/-- The 2048 pixels as 32 rows of 64, pixel (c, r) at bit c of row r: index c + 64 r (R25). -/
abbrev Framebuffer := Vector (BitVec 64) 32

/-- The memory (R36): the parameter FONT it was reset with (`none`: the block's own, of which nothing is known; log
entry 2), and the bytes that differ from what reset leaves, by strictly rising address (`Memory.wf`,
Machine/Ops.lean). -/
structure Memory where
  font : Option Font
  cells : List Host.Cell
  deriving DecidableEq, Repr

structure State where
  /-- V0..VF (R15, R16). -/
  v : Vector Byte 16
  /-- The index register I (R17). -/
  i : Word
  /-- The program counter (R18). -/
  pc : Word
  /-- The stack pointer, the number of occupied entries, 0..16 (R22). -/
  sp : Fin 17
  /-- The 16 return addresses (R21). -/
  stack : Vector Word 16
  /-- The delay timer (R23). -/
  dt : Byte
  /-- The sound timer (R23). -/
  st : Byte
  /-- The keypad's levels (R24). -/
  keys : Vector Bool 16
  /-- The framebuffer (R25). -/
  fb : Framebuffer
  /-- draw_flag (R26). -/
  drawFlag : Bool
  /-- The memory (R36). -/
  mem : Memory
  /-- The fault record; the block is halted when there is one (R27). -/
  faultRecord : Option FaultRecord
  /-- The load phase (R35, R131). -/
  phase : LoadPhase
  /-- The step input trace_enable (R30). -/
  traceEnable : Bool
  /-- The step input sound_enable (R30). -/
  soundEnable : Bool
  /-- The step input RND where the host gives one; `none` leaves it free (R30, R93, log entry 3). -/
  rndInput : Option Byte
  /-- sound_active, the output of the last step (R32). -/
  soundActive : Bool
  /-- The events of the last step, in the order emitted (R33). -/
  events : List Event
  /-- MODEL: how many free values have been drawn (log entry 3). -/
  fresh : Nat
  deriving DecidableEq, Repr

/-- What a step or a meaning answers. -/
abbrev Result := Host.Outcome State Fault Refusal

/-- The block is halted (R27). -/
def State.halted (s : State) : Bool := s.faultRecord.isSome

/-- The state after reset of a block whose parameter FONT is given, or with `none` is the block's own (R34, R40,
R128). -/
def State.resetWith (font : Option Font) : State where
  v := Vector.replicate 16 0
  i := 0
  pc := 512
  sp := 0
  stack := Vector.replicate 16 0
  dt := 0
  st := 0
  keys := Vector.replicate 16 false
  fb := Vector.replicate 32 0
  drawFlag := false
  mem := ⟨font, []⟩
  faultRecord := none
  phase := .boot
  traceEnable := false
  soundEnable := false
  rndInput := none
  soundActive := false
  events := []
  fresh := 0

/-- The machine right after reset (R128), with the block's own FONT (log entry 2). -/
def State.reset : State := State.resetWith none

end Sys2Proof.Machine
end

