-- ==== Sys2Proof/Machine/Ops.lean ====
section
/-! DEFINITION. The named operations over memory and registers, and taking a fault (spec/60_exceptions.md R109). -/

namespace Sys2Proof.Machine

/-! ## Memory (spec/20_memory.md) -/

/-- What an address nothing has written since reset reads as: FONT at 0..79, zero at 80..4095 (R34, R128). -/
def Memory.unlisted (font : Option Font) (a : Nat) : Byte :=
  if h : a < Config.fontSize then (font.getD Config.font)[a] else 0

/-- The byte a list of cells gives at an address, `base` where it lists none. -/
def getCell (base : Byte) (a : Nat) : List Host.Cell → Byte
  | [] => base
  | (b, u) :: rest => if a = b then u else getCell base a rest

/-- The cells with byte `v` at address `a`, kept in rising order; a byte equal to `base`, what `a` reads as
unlisted, is left out. -/
def putCell (base : Byte) (a : Nat) (v : Byte) : List Host.Cell → List Host.Cell
  | [] => if v = base then [] else [(a, v)]
  | (b, u) :: rest =>
    if a < b then (if v = base then (b, u) :: rest else (a, v) :: (b, u) :: rest)
    else if a = b then (if v = base then rest else (a, v) :: rest)
    else (b, u) :: putCell base a v rest

/-- The byte at an address: `MemRead(a, 1)` (R42) without its bounds check, which every access makes for its
whole range before its first byte (`inMemory`). -/
def Memory.get (m : Memory) (a : Nat) : Byte := getCell (Memory.unlisted m.font a) a m.cells

/-- The memory with byte `v` at address `a`: `MemWrite(a, 1, v)` (R42). An address above 4095 does not exist
and is not written; no instruction reaches one (`inMemory`). -/
def Memory.put (m : Memory) (a : Nat) (v : Byte) : Memory :=
  if a < Config.memSize then { m with cells := putCell (Memory.unlisted m.font a) a v m.cells } else m

/-- The memory with a list of bytes at `base`, `base + 1`, …, written in that order. -/
def Memory.putBytes (m : Memory) (base : Nat) : List Byte → Memory
  | [] => m
  | b :: rest => (m.put base b).putBytes (base + 1) rest

/-- The canonical form: addresses strictly rising and in 0..4095, and no cell equal to what its address
reads as unlisted. -/
abbrev Memory.wf (m : Memory) : Prop :=
  m.cells.Pairwise (fun c d => c.1 < d.1) ∧
    ∀ c ∈ m.cells, c.1 < Config.memSize ∧ c.2 ≠ Memory.unlisted m.font c.1

/-- The byte a state's memory holds at an address. -/
def State.byteAt (s : State) (a : Nat) : Byte := s.mem.get a

/-- `n` bytes from `base` on all lie in 0..4095. No address is reduced (R47); no bytes lie anywhere. -/
def inMemory (base n : Nat) : Bool := n == 0 || base + n ≤ Config.memSize

/-! ## Registers -/

/-- The number of VF, the flag register (R16). -/
abbrev VF : RegIx := 0xF#4

/-- `V[x]` (R11, R15). -/
def State.reg (s : State) (x : RegIx) : Byte := s.v[x.toNat]'(x.isLt)

/-- `V[x] <- b` (R11, R15). -/
def State.setReg (s : State) (x : RegIx) (b : Byte) : State := { s with v := s.v.set x.toNat b x.isLt }

/-- `I <- w` (R17). -/
def State.setI (s : State) (w : Word) : State := { s with i := w }

/-- `PC <- w` (R18). -/
def State.setPc (s : State) (w : Word) : State := { s with pc := w }

/-- `PC <- PC + 2` (R14, R18). -/
def State.advance (s : State) : State := s.setPc (s.pc + 2)

/-- `PC <- PC + 2`, and again when the condition holds (spec/43_skip.md). -/
def State.skipWhen (s : State) (taken : Bool) : State := s.setPc (if taken then s.pc + 2 + 2 else s.pc + 2)

/-- `DT <- b` (R23). -/
def State.setDt (s : State) (b : Byte) : State := { s with dt := b }

/-- `ST <- b` (R23). -/
def State.setSt (s : State) (b : Byte) : State := { s with st := b }

/-- The memory is replaced by what a store made of it. -/
def State.setMem (s : State) (m : Memory) : State := { s with mem := m }

/-- The framebuffer is replaced and draw_flag set (R26, R67, R68). -/
def State.setDisplay (s : State) (fb : Framebuffer) : State := { s with fb := fb, drawFlag := true }

/-- `V[0] <- …; …; V[n - 1] <- …`: registers 0..n - 1 loaded from the bytes at `base` on, in that order (R99). -/
def State.loadRegsFrom (s : State) (base n : Nat) : State :=
  (List.range n).foldl (fun t k => t.setReg (BitVec.ofNat 4 k) (t.mem.get (base + k))) s

/-- `key[k]` for k in 0..15 (R11, R24). -/
def State.keyDown (s : State) (k : Nat) : Bool := s.keys.getD k false

/-! ## The stack (R21, R22) -/

/-- `stack[SP] <- w; SP <- SP + 1` (R71), where there is a free entry. -/
def State.push (s : State) (w : Word) (h : s.sp.val < 16) : State :=
  { s with stack := s.stack.set s.sp.val w h, sp := ⟨s.sp.val + 1, by omega⟩ }

/-- `SP <- SP - 1` (R69), where an entry is occupied. The entry is not cleared. -/
def State.pop (s : State) : State := { s with sp := ⟨s.sp.val - 1, by omega⟩ }

/-- The entry a return reads, `stack[SP - 1]` (R69), where one is occupied. -/
def State.top (s : State) (_ : s.sp.val ≠ 0) : Word := s.stack[s.sp.val - 1]'(by omega)

/-! ## Free values -/

/-- RND of the step (R30, R93): what the host gives, else a free byte (log entry 3). -/
def State.rnd (s : State) : Byte := s.rndInput.getD (Config.freeRnd s.fresh)

/-- One more free value is drawn. -/
def State.drawFresh (s : State) : State := { s with fresh := s.fresh + 1 }

/-! ## Events, and taking a fault -/

/-- `emit e` (R11, R33). -/
def State.emit (s : State) (e : Event) : State := { s with events := s.events ++ [e] }

/-- `raise F(info)` in the step at PC with the given opcode (R109): the record is written and emitted, the step
outputs sound_active = 0, and nothing else of the state changes. There is no handler and no return from a
fault: only Reset clears the record (R110; `hostReset`, Machine/HostPort.lean). -/
def takeFault (cause : Fault) (opcode : Option Word) (info : Option Nat) (s : State) : State :=
  { s with
    faultRecord := some ⟨cause, s.pc, opcode, info⟩
    events := s.events ++ [.fault ⟨cause, s.pc, opcode, info⟩]
    soundActive := false }

/-- A meaning that raises: the fault is taken with the instruction's own opcode (R58 gives an instruction
exactly one word, log entry 6). -/
def raise (cause : Fault) (ins : Instr) (info : Option Nat) (s : State) : Result :=
  .next (takeFault cause (some (encode ins)) info s)

/-- The bounds check of an access to `n` bytes at I, made before any write (R13, R42): the access's effect, or
DataBoundsFault with the first address outside memory. -/
def withBytesAtI (ins : Instr) (n : Nat) (s t : State) : Result :=
  if inMemory s.i.toNat n then .next t
  else raise .dataBounds ins (some (max s.i.toNat Config.memSize)) s

end Sys2Proof.Machine
end

