-- ==== Sys2Proof/Machine/Cycle.lean ====
section
/-! DEFINITION. The stages of a step around the instruction (spec/30_encoding.md R64): the fetch, the trace, the
UNKNOWN word and the tick. -/

namespace Sys2Proof.Machine

/-- A step begins: its output list is empty, and the first step leaves load phase BOOT (R33, R131). -/
def beginStep (s : State) : State := { s with soundActive := false, events := [], phase := .run }

/-- A step of a halted block: no event, sound_active = 0, no state changed (R65). -/
def idleStep (s : State) : State := { s with soundActive := false, events := [] }

/-- The word at PC, where PC + 1 still lies in memory (R55). -/
def fetch (s : State) : Option Word :=
  if s.pc.toNat ≤ 4094 then some (wordOfBytes (s.byteAt s.pc.toNat) (s.byteAt (s.pc.toNat + 1))) else none

/-- `raise FetchBoundsFault(info = max(PC, 4096))` (R55). -/
def fetchFault (s : State) : State := takeFault .fetchBounds none (some (max s.pc.toNat Config.memSize)) s

/-- The trace record, when the step's trace_enable is 1 (R124). -/
def traceStage (op : Word) (s : State) : State :=
  if s.traceEnable then s.emit (.trace s.pc op s.sp s.v) else s

/-- An UNKNOWN word: the event, and no other effect (R107). -/
def unknownStage (op : Word) (s : State) : State := s.emit (.unknownOpcode s.pc op)

/-- A timer's next value: one less while above 0 (R118). -/
def countDown (b : Byte) : Byte := if b = 0 then 0 else b - 1

/-- The tick (R118, R119). -/
def tick (s : State) : State :=
  { s with
    soundActive := s.st != 0
    events := if s.soundEnable && s.st != 0 then s.events ++ [.alert] else s.events
    dt := countDown s.dt
    st := countDown s.st }

/-- After the instruction: the tick, but not in a step that has faulted (R109, R118). -/
def endStep : Result → Result
  | .next t => .next (if t.halted then t else tick t)
  | .fault f => .fault f
  | .refused r => .refused r

/-- A word is stored where the fetch reads its next instruction, as memory holds it (R43). -/
def storeWordAtPc (s : State) (w : Word) : State := s.setMem (s.mem.putBytes s.pc.toNat (bytesOfWord w))

end Sys2Proof.Machine
end

