-- ==== Sys2Proof/Machine/Operands.lean ====
section
/-! DEFINITION. The operand forms that compute something (spec/30_encoding.md R56): addresses, key indices, register
blocks, decimal digits. V[X], V[Y], NN and N are used as they are. -/

namespace Sys2Proof.Machine

/-- `zext_16(NNN)` (R56). -/
def addrOperand (nnn : Addr) : Word := nnn.setWidth 16

/-- The target of BNNN, `NNN + V[0]`, at most 4350 and so not reduced (R72). -/
def indexedTarget (s : State) (nnn : Addr) : Word := addrOperand nnn + (s.reg 0).setWidth 16

/-- The level of the key a byte indexes, where it indexes one: a byte above 15 names no key (R78, R79). -/
def keyLevel (s : State) (k : Byte) : Option Bool :=
  if k.toNat < 16 then some (s.keyDown k.toNat) else none

/-- The scan of keys 0..15 in order: the last index found pressed, if any (R102). -/
def lastPressed (s : State) : Option Nat :=
  (List.range 16).foldl (fun found k => if s.keyDown k then some k else found) none

/-- `V[X] * 5`, the address of a glyph (R96): at most 1275. -/
def glyphAddr (b : Byte) : Word := BitVec.ofNat 16 (b.toNat * Config.glyphBytes)

/-- The hundreds, tens and ones digits of a byte (R97). -/
def decimalDigits (b : Byte) : List Byte :=
  [BitVec.ofNat 8 (b.toNat / 100), BitVec.ofNat 8 (b.toNat / 10 % 10), BitVec.ofNat 8 (b.toNat % 10)]

/-- V[0], …, V[X]: the X + 1 registers FX55 stores (R56, R98). -/
def regBlock (s : State) (x : RegIx) : List Byte :=
  (List.range (x.toNat + 1)).map fun k => s.reg (BitVec.ofNat 4 k)

end Sys2Proof.Machine
end

