-- ==== Sys2Proof/Machine/Flags.lean ====
section
/-! DEFINITION. The values the instructions write to VF as a flag (spec/10_state.md R16), each 0 or 1. -/

namespace Sys2Proof.Machine

/-- A condition as a flag's value. -/
def flag (c : Bool) : Byte := if c then 1 else 0

/-- 8XY4: carry, 1 when the unreduced sum is above 255 (R88). -/
def carryFlag (a b : Byte) : Byte := flag (255 < a.toNat + b.toNat)

/-- 8XY5 and, with its operands exchanged, 8XY7: no borrow in `a - b`, 0 when a < b (R89, R91). -/
def noBorrowFlag (a b : Byte) : Byte := flag (b.toNat ≤ a.toNat)

/-- 8XY6: the bit shifted out, bit 0 (R90). -/
def lowBitFlag (a : Byte) : Byte := a &&& 1

/-- 8XYE: the bit shifted out, bit 7 (R92). -/
def highBitFlag (a : Byte) : Byte := (a >>> 7) &&& 1

/-- FX1E: range flag, 1 when the unreduced sum leaves the 4096-byte memory (R95). -/
def rangeFlag (i : Word) (b : Byte) : Byte := flag (4095 < i.toNat + b.toNat)

/-- DXYN: collision, 1 when a set pixel was cleared (R68). -/
def collisionFlag (hit : Bool) : Byte := flag hit

end Sys2Proof.Machine
end

