-- ==== Sys2Proof/Machine/Alu.lean ====
section
/-! DEFINITION. Register and ALU instructions (spec/44_alu.md). The statements of a rule run in the order written and
each sees the writes before it (spec/00_scope.md R12), which is what decides the cases X = F and Y = F (R81). -/

namespace Sys2Proof.Machine

/-- `V[X] <- result; V[F] <- 0; PC <- PC + 2`: the result first, then the flag (R85 to R87). -/
def logicOp (f : Byte → Byte → Byte) (x y : RegIx) (s : State) : Result :=
  .next ((s.setReg x (f (s.reg x) (s.reg y))).setReg VF 0).advance

/-- `V[F] <- flag; V[X] <- result of the state after that write; PC <- PC + 2` (R89 to R92). -/
def flagThenResult (vf : Byte) (x : RegIx) (result : State → Byte) (s : State) : Result :=
  let t := s.setReg VF vf
  .next (t.setReg x (result t)).advance

/-- 6XNN, `LD Vx, nn` (R82). -/
def execLdImm (x : RegIx) (nn : Byte) (s : State) : Result := .next (s.setReg x nn).advance

/-- 7XNN, `ADD Vx, nn` (R83): modulo 256, VF not written. -/
def execAddImm (x : RegIx) (nn : Byte) (s : State) : Result := .next (s.setReg x (s.reg x + nn)).advance

/-- 8XY0, `LD Vx, Vy` (R84). -/
def execLdReg (x y : RegIx) (s : State) : Result := .next (s.setReg x (s.reg y)).advance

/-- 8XY1, `OR Vx, Vy` (R85). -/
def execOrReg (x y : RegIx) (s : State) : Result := logicOp (· ||| ·) x y s

/-- 8XY2, `AND Vx, Vy` (R86). -/
def execAndReg (x y : RegIx) (s : State) : Result := logicOp (· &&& ·) x y s

/-- 8XY3, `XOR Vx, Vy` (R87). -/
def execXorReg (x y : RegIx) (s : State) : Result := logicOp (· ^^^ ·) x y s

/-- 8XY4, `ADD Vx, Vy` (R88): the sum is read before any write. -/
def execAddReg (x y : RegIx) (s : State) : Result :=
  flagThenResult (carryFlag (s.reg x) (s.reg y)) x (fun _ => s.reg x + s.reg y) s

/-- 8XY5, `SUB Vx, Vy` (R89). -/
def execSubReg (x y : RegIx) (s : State) : Result :=
  flagThenResult (noBorrowFlag (s.reg x) (s.reg y)) x (fun t => t.reg x - t.reg y) s

/-- 8XY6, `SHR Vx, Vy` (R90). -/
def execShr (x : RegIx) (s : State) : Result :=
  flagThenResult (lowBitFlag (s.reg x)) x (fun t => t.reg x >>> 1) s

/-- 8XY7, `SUBN Vx, Vy` (R91). -/
def execSubn (x y : RegIx) (s : State) : Result :=
  flagThenResult (noBorrowFlag (s.reg y) (s.reg x)) x (fun t => t.reg y - t.reg x) s

/-- 8XYE, `SHL Vx, Vy` (R92). -/
def execShl (x : RegIx) (s : State) : Result :=
  flagThenResult (highBitFlag (s.reg x)) x (fun t => t.reg x <<< 1) s

/-- CXNN, `RND Vx, nn` (R93). -/
def execRnd (x : RegIx) (nn : Byte) (s : State) : Result := .next (s.setReg x (s.rnd &&& nn)).drawFresh.advance

end Sys2Proof.Machine
end

