-- ==== Sys2Proof/Machine/Raster.lean ====
section
/-! DEFINITION. The XOR raster engine of DXYN (spec/41_display.md R68). -/

namespace Sys2Proof.Machine

/-- fb[idx] for idx in 0..2047 (R11, R25): bit `idx mod 64` of row `idx div 64`. -/
def pixelOf (fb : Framebuffer) (idx : Nat) : Bool :=
  (fb.getD (idx / Config.fbWidth) 0).getLsbD (idx % Config.fbWidth)

/-- fb[idx] of a state. -/
def State.pixel (s : State) (idx : Nat) : Bool := pixelOf s.fb idx

/-- `fb[idx] <- fb[idx] ^ 1` (R68). -/
def togglePixel (fb : Framebuffer) (idx : Nat) : Framebuffer :=
  fb.setIfInBounds (idx / Config.fbWidth)
    (fb.getD (idx / Config.fbWidth) 0 ^^^ BitVec.twoPow 64 (idx % Config.fbWidth))

/-- `for i in 0..2047: fb[i] <- 0` (R67). -/
def blankDisplay : Framebuffer := Vector.replicate 32 0

/-- The pixel of sprite column `col`, row `row`, drawn at (x0, y0): both overflows wrap through the one mod 2048
(R68). -/
def pixelIndex (x0 y0 row col : Nat) : Nat :=
  (x0 + col + (y0 + row) * Config.fbWidth) % Config.fbSize

/-- The pixels a sprite's set bits name, in the order of R68's loops: row by row, column 0 (bit 7 of the row's
byte) first. -/
def spritePixels (m : Memory) (base x0 y0 n : Nat) : List Nat :=
  (List.range n).flatMap fun row =>
    ((List.range 8).filter fun col => (m.get (base + row)).getLsbD (7 - col)).map (pixelIndex x0 y0 row)

/-- The framebuffer while a sprite is drawn, and whether a set pixel has been cleared. -/
structure Canvas where
  fb : Framebuffer
  hit : Bool
  deriving DecidableEq, Repr

/-- `if fb[idx] == 1: V[F] <- 1; fb[idx] <- fb[idx] ^ 1` (R68). -/
def Canvas.plot (c : Canvas) (idx : Nat) : Canvas :=
  ⟨togglePixel c.fb idx, c.hit || pixelOf c.fb idx⟩

/-- The sprite of `n` rows at address `base`, drawn at (x0, y0) on a framebuffer. -/
def drawSprite (m : Memory) (base x0 y0 n : Nat) (fb : Framebuffer) : Canvas :=
  (spritePixels m base x0 y0 n).foldl Canvas.plot ⟨fb, false⟩

end Sys2Proof.Machine
end

