-- ==== Sys2Proof/Machine/Display.lean ====
section
/-! DEFINITION. The display instructions (spec/41_display.md). -/

namespace Sys2Proof.Machine

/-- 00E0, `CLS` (R67): every pixel 0, draw_flag 1. -/
def execCls (s : State) : Result := .next (s.setDisplay blankDisplay).advance

/-- DXYN, `DRW Vx, Vy, n` (R68). V[X], V[Y] and I are read before VF is written. -/
def execDrw (x y : RegIx) (n : Nibble) (s : State) : Result :=
  let c := drawSprite s.mem s.i.toNat (s.reg x).toNat (s.reg y).toNat n.toNat s.fb
  withBytesAtI (.drw x y n) n.toNat s ((s.setReg VF (collisionFlag c.hit)).setDisplay c.fb).advance

end Sys2Proof.Machine
end

