-- ==== Sys2Proof/Machine/Flow.lean ====
section
/-! DEFINITION. Control transfer (spec/42_flow.md). -/

namespace Sys2Proof.Machine

/-- 00EE, `RET` (R69): StackUnderflowFault with SP = 0, else on after the call whose address the entry holds. -/
def execRet (s : State) : Result :=
  if h : s.sp.val = 0 then raise .stackUnderflow .ret none s
  else .next (s.pop.setPc (s.top h)).advance

/-- 1NNN, `JP nnn` (R70). -/
def execJp (nnn : Addr) (s : State) : Result := .next (s.setPc (addrOperand nnn))

/-- 2NNN, `CALL nnn` (R71): StackOverflowFault with SP = 16, else the instruction's own address is pushed. -/
def execCall (nnn : Addr) (s : State) : Result :=
  if h : s.sp.val < 16 then .next ((s.push s.pc h).setPc (addrOperand nnn))
  else raise .stackOverflow (.call nnn) none s

/-- BNNN, `JP V0, nnn` (R72). -/
def execJpV0 (nnn : Addr) (s : State) : Result := .next (s.setPc (indexedTarget s nnn))

end Sys2Proof.Machine
end

