-- ==== Sys2Proof/Machine/IndexMemory.lean ====
section
/-! DEFINITION. Index register and memory instructions (spec/45_index_memory.md). -/

namespace Sys2Proof.Machine

/-- ANNN, `LD I, nnn` (R94). -/
def execLdI (nnn : Addr) (s : State) : Result := .next (s.setI (addrOperand nnn)).advance

/-- FX1E, `ADD I, Vx` (R95): the flag is written before I, and V[X] is read again after it. -/
def execAddI (x : RegIx) (s : State) : Result :=
  let t := s.setReg VF (rangeFlag s.i (s.reg x))
  .next (t.setI (t.i + (t.reg x).setWidth 16)).advance

/-- FX29, `LD F, Vx` (R96). -/
def execLdF (x : RegIx) (s : State) : Result := .next (s.setI (glyphAddr (s.reg x))).advance

/-- FX33, `LD B, Vx` (R97). -/
def execLdB (x : RegIx) (s : State) : Result :=
  withBytesAtI (.ldB x) 3 s (s.setMem (s.mem.putBytes s.i.toNat (decimalDigits (s.reg x)))).advance

/-- `I <- (I + X + 1) mod 65536` (R98, R99). -/
def State.bumpI (s : State) (x : RegIx) : State := s.setI (s.i + BitVec.ofNat 16 (x.toNat + 1))

/-- FX55, `LD [I], Vx` (R98). -/
def execStoreRegs (x : RegIx) (s : State) : Result :=
  withBytesAtI (.storeRegs x) (x.toNat + 1) s
    ((s.setMem (s.mem.putBytes s.i.toNat (regBlock s x))).bumpI x).advance

/-- FX65, `LD Vx, [I]` (R99). -/
def execLoadRegs (x : RegIx) (s : State) : Result :=
  withBytesAtI (.loadRegs x) (x.toNat + 1) s
    ((s.loadRegsFrom s.i.toNat (x.toNat + 1)).bumpI x).advance

end Sys2Proof.Machine
end

