-- ==== Sys2Proof/Machine/Skip.lean ====
section
/-! DEFINITION. The conditional skips (spec/43_skip.md). -/

namespace Sys2Proof.Machine

/-- 3XNN, `SE Vx, nn` (R74). -/
def execSeImm (x : RegIx) (nn : Byte) (s : State) : Result := .next (s.skipWhen (s.reg x == nn))

/-- 4XNN, `SNE Vx, nn` (R75). -/
def execSneImm (x : RegIx) (nn : Byte) (s : State) : Result := .next (s.skipWhen (s.reg x != nn))

/-- 5XY0, `SE Vx, Vy` (R76). -/
def execSeReg (x y : RegIx) (s : State) : Result := .next (s.skipWhen (s.reg x == s.reg y))

/-- 9XY0, `SNE Vx, Vy` (R77). -/
def execSneReg (x y : RegIx) (s : State) : Result := .next (s.skipWhen (s.reg x != s.reg y))

/-- EX9E, `SKP Vx` (R78): KeyIndexFault with V[X] > 15. -/
def execSkp (x : RegIx) (s : State) : Result :=
  match keyLevel s (s.reg x) with
  | some down => .next (s.skipWhen down)
  | none => raise .keyIndex (.skp x) (some (s.reg x).toNat) s

/-- EXA1, `SKNP Vx` (R79): KeyIndexFault with V[X] > 15. -/
def execSknp (x : RegIx) (s : State) : Result :=
  match keyLevel s (s.reg x) with
  | some down => .next (s.skipWhen !down)
  | none => raise .keyIndex (.sknp x) (some (s.reg x).toNat) s

end Sys2Proof.Machine
end

