-- ==== Sys2Proof/Machine/TimerKey.lean ====
section
/-! DEFINITION. Timer and key-wait instructions (spec/46_timer_key.md). The tick of the same step comes after them
(`tick`, Machine/Cycle.lean). -/

namespace Sys2Proof.Machine

/-- FX07, `LD Vx, DT` (R101). -/
def execLdVxDT (x : RegIx) (s : State) : Result := .next (s.setReg x s.dt).advance

/-- FX0A, `LD Vx, K` (R102): with no key down nothing is written and PC stays. -/
def execLdVxK (x : RegIx) (s : State) : Result :=
  match lastPressed s with
  | some k => .next (s.setReg x (BitVec.ofNat 8 k)).advance
  | none => .next s

/-- FX15, `LD DT, Vx` (R103). -/
def execLdDTVx (x : RegIx) (s : State) : Result := .next (s.setDt (s.reg x)).advance

/-- FX18, `LD ST, Vx` (R104). -/
def execLdSTVx (x : RegIx) (s : State) : Result := .next (s.setSt (s.reg x)).advance

end Sys2Proof.Machine
end

