-- ==== Sys2Proof/Machine/Step.lean ====
section
/-! DEFINITION. One step (spec/30_encoding.md R64, R65) and the order of its checks (spec/60_exceptions.md R111). -/

namespace Sys2Proof.Machine

/-- One step. It is refused in load phase POISONED (R131); a halted block stays as it is (R65); then the fetch, the
trace, the instruction and the tick. -/
def step (s : State) : Host.Outcome State Fault Refusal :=
  if s.phase = .poisoned then .refused .poisoned
  else if s.halted then .next (idleStep s)
  else
    match fetch (beginStep s) with
    | none => .next (fetchFault (beginStep s))
    | some op =>
      match decode op with
      | none => endStep (.next (unknownStage op (traceStage op (beginStep s))))
      | some i => endStep (exec i (traceStage op (beginStep s)))

/-- The instruction `w` of `nbits` bits placed at PC, so that the next step fetches and runs it (log entry 8). -/
def State.withFetchWord (s : State) (nbits w : Nat) : State := storeWordAtPc s (tableWord nbits w)

end Sys2Proof.Machine
end

