-- ==== Sys2Proof/Machine/FontTable.lean ====
section
/-! DEFINITION. The suggested value of the parameter FONT (spec/20_memory.md R40, "from general knowledge, not in
source"). No reset value rests on it (log entry 2); `State.resetWith (some suggestedFont)` is the block with it. -/

namespace Sys2Proof.Machine

/-- The glyphs of 0 to 7, five bytes each (R40). -/
def glyphs0to7 : List Byte :=
  [0xF0, 0x90, 0x90, 0x90, 0xF0,  0x20, 0x60, 0x20, 0x20, 0x70,
   0xF0, 0x10, 0xF0, 0x80, 0xF0,  0xF0, 0x10, 0xF0, 0x10, 0xF0,
   0x90, 0x90, 0xF0, 0x10, 0x10,  0xF0, 0x80, 0xF0, 0x10, 0xF0,
   0xF0, 0x80, 0xF0, 0x90, 0xF0,  0xF0, 0x10, 0x20, 0x40, 0x40]

/-- The glyphs of 8 to F (R40). -/
def glyphs8toF : List Byte :=
  [0xF0, 0x90, 0xF0, 0x90, 0xF0,  0xF0, 0x90, 0xF0, 0x10, 0xF0,
   0xF0, 0x90, 0xF0, 0x90, 0x90,  0xE0, 0x90, 0xE0, 0x90, 0xE0,
   0xF0, 0x80, 0x80, 0x80, 0xF0,  0xE0, 0x90, 0x90, 0x90, 0xE0,
   0xF0, 0x80, 0xF0, 0x80, 0xF0,  0xF0, 0x80, 0xF0, 0x80, 0x80]

/-- The conventional CHIP-8 font, digit d at bytes 5d..5d + 4 (R40). -/
def suggestedFont : Font := ⟨(glyphs0to7 ++ glyphs8toF).toArray, rfl⟩

end Sys2Proof.Machine
end

