-- ==== Sys2Proof/Machine/HostPort.lean ====
section
/-! DEFINITION. The host operations (spec/60_exceptions.md R121 to R123, spec/70_reset_and_hazards.md R128 to R132),
each between two steps. -/

namespace Sys2Proof.Machine

/-- What the host may ask for (R121). -/
inductive HostOp where
  /-- One step with its three inputs (R30). -/
  | step (traceEnable soundEnable : Bool) (rnd : Byte)
  | reset
  | loadRom (bytes : List Byte)
  | setKey (k v : Nat)
  | readPixel (i : Nat)
  | readDrawFlag
  | clearDrawFlag
  | readFault
  deriving DecidableEq, Repr

/-- What the host gets (R121). -/
inductive HostReply where
  /-- The operation was done and gives nothing back. -/
  | done
  /-- The operation is refused and has changed nothing. -/
  | refused
  | loadSuccess
  | loadFailure
  /-- A pixel or the draw flag. -/
  | bit (b : Bool)
  | faultRecord (r : Option FaultRecord)
  /-- A step's sound_active and its events (R32, R33). -/
  | stepped (soundActive : Bool) (events : List Event)
  deriving DecidableEq, Repr

/-- Reset() (R128, R130): the state of R34. The parameter FONT, the inputs the host presents and the count of free
values are not state of the block and stay (log entry 11). -/
def hostReset (s : State) : State :=
  { State.resetWith s.mem.font with
    traceEnable := s.traceEnable
    soundEnable := s.soundEnable
    rndInput := s.rndInput
    fresh := s.fresh }

/-- The inputs of the next step are presented (R30). -/
def presentInputs (s : State) (traceEnable soundEnable : Bool) (rnd : Option Byte) : State :=
  { s with traceEnable := traceEnable, soundEnable := soundEnable, rndInput := rnd }

/-- Step(trace_enable, sound_enable, RND) (R121). -/
def hostStep (traceEnable soundEnable : Bool) (rnd : Byte) (s : State) : Result :=
  step (presentInputs s traceEnable soundEnable (some rnd))

/-- The bytes a failed load leaves at 512..4095: any values (R131, log entry 10). -/
def partialImage (n : Nat) : List Byte :=
  (List.range Config.romMax).map fun k => Config.freeLoadByte n (Config.progStart + k)

/-- LoadROM(bytes) (R131). -/
def loadRom (bytes : List Byte) (s : State) : State × HostReply :=
  if s.phase ≠ .boot then (s, .refused)
  else if Config.romMax < bytes.length then
    ({ s with
        mem := s.mem.putBytes Config.progStart (partialImage s.fresh)
        phase := .poisoned
        fresh := s.fresh + 1 }, .loadFailure)
  else ({ s with mem := s.mem.putBytes Config.progStart bytes }, .loadSuccess)

/-- SetKey(k, v) (R121): refused with k > 15 or v not in {0, 1}. -/
def setKey (k v : Nat) (s : State) : State × HostReply :=
  if h : k < 16 ∧ v < 2 then ({ s with keys := s.keys.set k (v == 1) h.1 }, .done) else (s, .refused)

/-- ReadPixel(i) (R121): refused with i > 2047. -/
def readPixel (i : Nat) (s : State) : HostReply :=
  if i < Config.fbSize then .bit (s.pixel i) else .refused

/-- One host operation: the state after it and what the host gets (R121). -/
def hostOp (o : HostOp) (s : State) : State × HostReply :=
  match o with
  | .step t snd r =>
    match hostStep t snd r s with
    | .next u => (u, .stepped u.soundActive u.events)
    | .fault _ => (s, .refused)
    | .refused _ => (s, .refused)
  | .reset => (hostReset s, .done)
  | .loadRom bytes => loadRom bytes s
  | .setKey k v => setKey k v s
  | .readPixel i => (s, readPixel i s)
  | .readDrawFlag => (s, .bit s.drawFlag)
  | .clearDrawFlag => ({ s with drawFlag := false }, .done)
  | .readFault => (s, .faultRecord s.faultRecord)

end Sys2Proof.Machine
end

