-- ==== Sys2Proof/Safety.lean ====
section
/-! DEFINITION. What a run must keep to count as good, and the terms the statements about the machine use: the
invariant of every state, the list of what can stop a step (spec/60_exceptions.md R105, R108), and the words for what
an instruction leaves unchanged. -/

namespace Sys2Proof.Machine

/-! ## Running and halted -/

/-- A step of this state fetches: the block is neither halted (R27) nor in load phase POISONED (R131). -/
def State.running (s : State) : Prop := s.halted = false ∧ s.phase ≠ .poisoned

/-- The word of the two bytes at PC, big-endian (R43, R55). -/
def State.wordAtPc (s : State) : Word := wordOfBytes (s.byteAt s.pc.toNat) (s.byteAt (s.pc.toNat + 1))

/-- The trace output of a step that has fetched `w` (R124). -/
def State.traceOf (s : State) (w : Word) : List Event := if s.traceEnable then [.trace s.pc w s.sp s.v] else []

/-- The state stage 4 of a step executes in: after the fetch and the trace (R64), out of load phase BOOT (R131). -/
def State.atExecute (s : State) (w : Word) : State :=
  { s with soundActive := false, events := s.traceOf w, phase := .run }

/-! ## What can stop a step (R105, R108) -/

/-- The fault, and the info it records, that an instruction's own rule raises in a state; `none` where the instruction
runs. R108: no instruction but these can fault. -/
def faultOf (ins : Instr) (s : State) : Option (Fault × Option Nat) :=
  match ins with
  | .ret => if s.sp.val = 0 then some (.stackUnderflow, none) else none
  | .call _ => if s.sp.val = 16 then some (.stackOverflow, none) else none
  | .skp x => if 15 < (s.reg x).toNat then some (.keyIndex, some (s.reg x).toNat) else none
  | .sknp x => if 15 < (s.reg x).toNat then some (.keyIndex, some (s.reg x).toNat) else none
  | .drw _ _ n =>
    if 0 < n.toNat ∧ 4095 < s.i.toNat + n.toNat - 1 then some (.dataBounds, some (max s.i.toNat 4096)) else none
  | .ldB _ => if 4095 < s.i.toNat + 2 then some (.dataBounds, some (max s.i.toNat 4096)) else none
  | .storeRegs x => if 4095 < s.i.toNat + x.toNat then some (.dataBounds, some (max s.i.toNat 4096)) else none
  | .loadRegs x => if 4095 < s.i.toNat + x.toNat then some (.dataBounds, some (max s.i.toNat 4096)) else none
  | .cls | .jp _ | .seImm _ _ | .sneImm _ _ | .seReg _ _ | .ldImm _ _ | .addImm _ _ | .ldReg _ _ | .orReg _ _
  | .andReg _ _ | .xorReg _ _ | .addReg _ _ | .subReg _ _ | .shr _ _ | .subn _ _ | .shl _ _ | .sneReg _ _ | .ldI _
  | .jpV0 _ | .rnd _ _ | .ldVxDT _ | .ldVxK _ | .ldDTVx _ | .ldSTVx _ | .addI _ | .ldF _ => none

/-- The state after a fault of the instruction at PC (R109): the record is written and emitted, sound_active is 0. -/
def State.faulted (s : State) (cause : Fault) (opcode : Option Word) (info : Option Nat) : State :=
  { s with
    faultRecord := some ⟨cause, s.pc, opcode, info⟩
    events := s.events ++ [.fault ⟨cause, s.pc, opcode, info⟩]
    soundActive := false }

/-- A fault record is one that R105 describes: info is an address outside memory for a bounds fault, the key index for
KeyIndexFault and absent otherwise, and only a fetch fault has no opcode (R27). -/
def FaultRecord.wf (r : FaultRecord) : Prop :=
  match r.cause with
  | .fetchBounds => r.opcode = none ∧ ∃ a, r.info = some a ∧ 4096 ≤ a
  | .dataBounds => r.opcode ≠ none ∧ ∃ a, r.info = some a ∧ 4096 ≤ a
  | .stackOverflow => r.opcode ≠ none ∧ r.info = none
  | .stackUnderflow => r.opcode ≠ none ∧ r.info = none
  | .keyIndex => r.opcode ≠ none ∧ ∃ k, r.info = some k ∧ 15 < k ∧ k < 256

/-! ## The invariant -/

/-- What holds at reset and after every step. -/
structure State.Inv (s : State) : Prop where
  /-- Memory is in its canonical form, and no address above 4095 is listed (R36). -/
  memory : s.mem.wf
  /-- PC never needs to wrap: 4350 is the largest value any rule gives it (R19). -/
  pcBound : s.pc.toNat ≤ 4350
  /-- A stack entry is the address of an executed 2NNN, so at most 4094 (R19, R71). -/
  stackBound : ∀ j (h : j < 16), s.stack[j].toNat ≤ 4094
  /-- The fault record is of R105's form and names the PC the block halted at (R27, R109). -/
  record : ∀ r, s.faultRecord = some r → r.pc = s.pc ∧ r.wf
  /-- A halted block has taken a step (R131) and outputs sound_active = 0 (R65). -/
  halted : s.halted = true → s.phase = .run ∧ s.soundActive = false

/-! ## Encoding -/

/-- A row of R58: every word that matches it, `w & mask = bits`, decodes to the row's instruction with the operands of
its fields (R54, R57). -/
def rowDecodes (bits mask : Word) (f : Word → Instr) : Prop := ∀ w : Word, w &&& mask = bits → decode w = some (f w)

/-! ## What stays as it was -/

/-- Every byte of memory reads as before. -/
def sameBytes (s t : State) : Prop := ∀ a, t.byteAt a = s.byteAt a

/-- `t` is `s` with the registers `f` gives and PC two further; all else, and every byte of memory, is as before. -/
def regsThenNext (s t : State) (f : RegIx → Byte) : Prop :=
  (∀ r, t.reg r = f r) ∧ t = { s with v := t.v, pc := s.pc + 2 } ∧ sameBytes s t

/-- Register `r` is one an instruction's rule may write: its destination, VF where the rule writes a flag (R16), or one
of V0..VX for FX65. -/
def mayWriteReg (ins : Instr) (r : RegIx) : Prop :=
  match ins with
  | .ldImm x _ | .addImm x _ | .ldReg x _ | .rnd x _ | .ldVxDT x | .ldVxK x => r = x
  | .orReg x _ | .andReg x _ | .xorReg x _ | .addReg x _ | .subReg x _ | .shr x _ | .subn x _ | .shl x _ =>
    r = x ∨ r = VF
  | .addI _ | .drw _ _ _ => r = VF
  | .loadRegs x => r.toNat ≤ x.toNat
  | .cls | .ret | .jp _ | .call _ | .seImm _ _ | .sneImm _ _ | .seReg _ _ | .sneReg _ _ | .ldI _ | .jpV0 _ | .skp _
  | .sknp _ | .ldDTVx _ | .ldSTVx _ | .ldF _ | .ldB _ | .storeRegs _ => False

/-- The instructions that write I (R17). -/
def writesI : Instr → Prop
  | .ldI _ | .addI _ | .ldF _ | .storeRegs _ | .loadRegs _ => True
  | .cls | .ret | .jp _ | .call _ | .seImm _ _ | .sneImm _ _ | .seReg _ _ | .ldImm _ _ | .addImm _ _ | .ldReg _ _
  | .orReg _ _ | .andReg _ _ | .xorReg _ _ | .addReg _ _ | .subReg _ _ | .shr _ _ | .subn _ _ | .shl _ _
  | .sneReg _ _ | .jpV0 _ | .rnd _ _ | .drw _ _ _ | .skp _ | .sknp _ | .ldVxDT _ | .ldVxK _ | .ldDTVx _ | .ldSTVx _
  | .ldB _ => False

/-- Pixel `k` is a set bit of the sprite of `n` rows at I, drawn at (x0, y0) (R68: bit 7 is column 0, one wrap mod
2048). -/
def State.spriteHas (s : State) (x0 y0 n k : Nat) : Prop :=
  ∃ row, row < n ∧ ∃ col, col < 8 ∧
    (s.byteAt (s.i.toNat + row)).getLsbD (7 - col) = true ∧ (x0 + col + (y0 + row) * 64) % 2048 = k

end Sys2Proof.Machine
end

