-- ==== Sys2Proof/Certificates/Slice0/Obligations.lean ====
section
/-! DEFINITION. The statements about the machine, for the provers. Each docstring names the rule of spec/ it
formalises. -/

open Sys2Proof Sys2Proof.Machine

/-! ## Reset and the invariant -/

/-- The value of every piece of state after reset, whatever the parameter FONT is, as the table of R34 lists it. The
first clause, that the model's reset is that of the block with its own FONT, is the model's choice (log entry 2) and no
rule of the spec. -/
def Obligations.ResetLeavesTheListedState : Prop :=
  State.reset = State.resetWith none ∧
  ∀ font : Option Font, ∀ s, s = State.resetWith font →
    (∀ r, s.reg r = 0) ∧ s.i = 0 ∧ s.pc = 512 ∧ s.sp = 0 ∧ (∀ j (h : j < 16), s.stack[j] = 0) ∧
    (∀ a (h : a < 80), s.byteAt a = (font.getD Config.font)[a]) ∧ (∀ a, 80 ≤ a → a < 4096 → s.byteAt a = 0) ∧
    (∀ k, k < 2048 → s.pixel k = false) ∧ (∀ k, k < 16 → s.keyDown k = false) ∧
    s.dt = 0 ∧ s.st = 0 ∧ s.drawFlag = false ∧ s.faultRecord = none ∧ s.phase = .boot

/-- The invariant holds after reset. -/
def Obligations.ResetMeetsTheInvariant : Prop := ∀ font : Option Font, (State.resetWith font).Inv

/-- What the spec infers of PC (R19), and R27, R36: every step keeps the invariant. -/
def Obligations.StepKeepsTheInvariant : Prop := ∀ s t : State, s.Inv → step s = .next t → t.Inv

/-! ## Decoding and encoding -/

/-- Decoding the word, the stored bytes or the table's number of an instruction gives the instruction back, with
every operand at every value its field admits (R54, R58). -/
def Obligations.DecodeInvertsEncode : Prop :=
  ∀ ins : Instr, decode (encode ins) = some ins ∧ decodeTableWord 16 (encode ins).toNat = some ins ∧
    ∀ rest, decodeBytes (bytesOfWord (encode ins) ++ rest) = .ok (ins, rest)

/-- No bit of a known word is dropped: the instruction it decodes to encodes to that word. -/
def Obligations.EncodeInvertsDecode : Prop := ∀ (w : Word) (ins : Instr), decode w = some ins → encode ins = w

/-- What the spec infers from R58 (R66): every word is UNKNOWN and of no row of R58, or of exactly one row, that of the instruction it decodes to. -/
def Obligations.EveryWordIsUnknownOrOfOneRow : Prop :=
  ∀ w : Word,
    (decode w = none ∧ ∀ r ∈ opcodeMap, r.admits w = false) ∨
    ∃ ins r, decode w = some ins ∧ r ∈ opcodeMap ∧ r.number = ins.rowNumber ∧ r.admits w = true ∧
      ∀ r' ∈ opcodeMap, r'.admits w = true → r' = r

/-- R57, R59: the UNKNOWN words are those of R59's six ranges (their number is not stated here). -/
def Obligations.UnknownWordsAreTheListedRanges : Prop :=
  ∀ w : Word, decode w = none ↔
    (opFam w = 0x0#4 ∧ w ≠ 0x00E0#16 ∧ w ≠ 0x00EE#16) ∨
    (opFam w = 0x5#4 ∧ opN w ≠ 0#4) ∨
    (opFam w = 0x8#4 ∧ opN w ∈ [0x8#4, 0x9#4, 0xA#4, 0xB#4, 0xC#4, 0xD#4, 0xF#4]) ∨
    (opFam w = 0x9#4 ∧ opN w ≠ 0#4) ∨
    (opFam w = 0xE#4 ∧ opNN w ∉ [0x9E#8, 0xA1#8]) ∨
    (opFam w = 0xF#4 ∧ opNN w ∉ [0x07#8, 0x0A#8, 0x15#8, 0x18#8, 0x1E#8, 0x29#8, 0x33#8, 0x55#8, 0x65#8])

/-- Words written out from R58's patterns decode to the instructions they stand for; 0x0000 and 0x5121 are UNKNOWN. -/
def Obligations.SampleWordsDecode : Prop :=
  decode 0x00E0 = some .cls ∧ decode 0x2210 = some (.call 0x210) ∧ decode 0x3342 = some (.seImm 3 0x42) ∧
  decode 0x8125 = some (.subReg 1 2) ∧ decode 0xD125 = some (.drw 1 2 5) ∧ decode 0xE5A1 = some (.sknp 5) ∧
  decode 0xF255 = some (.storeRegs 2) ∧ decode 0xF50A = some (.ldVxK 5) ∧ decode 0x0000 = none ∧
  decode 0x5121 = none

/-- R62: the line a disassembler writes for an instruction's word assembles to that instruction, and an UNKNOWN word
is written as a number; `SHR Vx` and `SHL Vx` stand for the forms with Y = 0. -/
def Obligations.AssemblerLineRoundTrip : Prop :=
  (∀ ins : Instr, disassemble (encode ins) = .inl ins.toLine ∧ ins.toLine.toInstr = some ins) ∧
  (∀ w : Word, decode w = none → disassemble w = .inr w) ∧
  ∀ x : RegIx, (Line.mk .SHR [.reg x.toNat]).toInstr = some (.shr x 0) ∧
    (Line.mk .SHL [.reg x.toNat]).toInstr = some (.shl x 0)

/-! ## The step -/

/-- R64: when the word at PC decodes to an instruction, the step is that instruction, executed after the trace (R124)
in a state whose output list holds it alone, and then the tick (R118, R119) unless the instruction faulted (R109). -/
def Obligations.StepRunsTheDecodedInstruction : Prop :=
  ∀ (s t : State) (ins : Instr), s.running → s.pc.toNat ≤ 4094 → decode s.wordAtPc = some ins →
    exec ins { s with
      soundActive := false
      events := if s.traceEnable then [.trace s.pc s.wordAtPc s.sp s.v] else []
      phase := .run } = .next t →
    step s = .next (if t.halted then t else
      { t with
        soundActive := decide (0 < t.st.toNat)
        events := if t.soundEnable = true ∧ 0 < t.st.toNat then t.events ++ [.alert] else t.events
        dt := if 0 < t.dt.toNat then t.dt - 1 else t.dt
        st := if 0 < t.st.toNat then t.st - 1 else t.st })

/-- R107: a step that finds an UNKNOWN word emits the event after the trace (R124), changes nothing else and ticks. -/
def Obligations.UnknownWordOnlyTicks : Prop :=
  ∀ s : State, s.running → s.pc.toNat ≤ 4094 → decode s.wordAtPc = none →
    ∃ t, step s = .next t ∧
      t = { s with dt := t.dt, st := t.st, soundActive := t.soundActive, events := t.events, phase := .run } ∧
      sameBytes s t ∧ t.dt.toNat = s.dt.toNat - 1 ∧ t.st.toNat = s.st.toNat - 1 ∧
      (t.soundActive = true ↔ 0 < s.st.toNat) ∧
      t.events = s.traceOf s.wordAtPc ++ [.unknownOpcode s.pc s.wordAtPc] ++
        (if s.soundEnable = true ∧ 0 < s.st.toNat then [.alert] else [])

/-- The inference the spec draws in R107 ("from then on every step emits UnknownOpcode for the same PC"): n + 1 steps
at an UNKNOWN word take n + 1 from each timer and end in the same place with the same event. -/
def Obligations.UnknownWordStepsInPlaceForEver : Prop :=
  ∀ (s : State) (n : Nat), s.running → s.pc.toNat ≤ 4094 → decode s.wordAtPc = none →
    ∃ t, Host.Core.run Sys2Proof.core (n + 1) s = .next t ∧
      .unknownOpcode s.pc s.wordAtPc ∈ t.events ∧
      t = { s with dt := t.dt, st := t.st, soundActive := t.soundActive, events := t.events, phase := .run } ∧
      sameBytes s t ∧ t.dt.toNat = s.dt.toNat - (n + 1) ∧ t.st.toNat = s.st.toNat - (n + 1)

/-- R65: a halted block's step changes no state, emits nothing and outputs sound_active = 0; every host operation but
Reset leaves the block halted, and Reset ends it. -/
def Obligations.HaltedBlockStaysUntilReset : Prop :=
  ∀ s : State, s.halted = true →
    (s.phase ≠ .poisoned → step s = .next { s with soundActive := false, events := [] }) ∧
    (∀ o, o ≠ .reset → (hostOp o s).1.faultRecord = s.faultRecord) ∧ (hostOp .reset s).1.halted = false

/-- R109: a step that faults, in its fetch (R55) or in its instruction, writes the record, emits it after the trace,
outputs sound_active = 0, does not tick, and keeps everything else as it was when the step began. -/
def Obligations.FaultingStepIsPrecise : Prop :=
  ∀ s : State, s.running →
    (4094 < s.pc.toNat → step s = .next { s with
      faultRecord := some ⟨.fetchBounds, s.pc, none, some (max s.pc.toNat 4096)⟩
      events := [.fault ⟨.fetchBounds, s.pc, none, some (max s.pc.toNat 4096)⟩]
      soundActive := false
      phase := .run }) ∧
    ∀ ins cause info, s.pc.toNat ≤ 4094 → decode s.wordAtPc = some ins → faultOf ins s = some (cause, info) →
      step s = .next { s with
        faultRecord := some ⟨cause, s.pc, some s.wordAtPc, info⟩
        events := s.traceOf s.wordAtPc ++ [.fault ⟨cause, s.pc, some s.wordAtPc, info⟩]
        soundActive := false
        phase := .run }

/-- A step is refused exactly in load phase POISONED (R131) and otherwise answers a next state: no instruction, no word
and no data ends a run by a stop of the model's own. That a fault is answered as a next state that holds its record is
the model's choice (log entry 1). -/
def Obligations.StepAnswersNextUnlessPoisoned : Prop :=
  ∀ s : State, (s.phase = .poisoned → step s = .refused .poisoned) ∧
    (s.phase ≠ .poisoned → ∃ t, step s = .next t)

/-- The list the spec infers from the instructions' rules (R108, R105): an instruction faults exactly in the states it
gives, with the list's cause and info, and
otherwise completes; a step halts the block exactly when its fetch or its instruction faults. -/
def Obligations.FaultListIsComplete : Prop :=
  (∀ (ins : Instr) (s : State), s.halted = false →
    (∀ cause info, faultOf ins s = some (cause, info) →
      exec ins s = .next (s.faulted cause (some (encode ins)) info)) ∧
    (faultOf ins s = none → ∃ t, exec ins s = .next t ∧ t.halted = false)) ∧
  ∀ s : State, s.running → ∃ t, step s = .next t ∧
    (t.halted = true ↔ 4094 < s.pc.toNat ∨ ∃ ins, decode s.wordAtPc = some ins ∧ faultOf ins s ≠ none)

/-- R117, R118: a step that does not fault takes one from each timer that its instruction does not write, and none
below 0. -/
def Obligations.TimersCountDownOncePerStep : Prop :=
  ∀ s t : State, s.running → step s = .next t → t.halted = false →
    ((∀ x, decode s.wordAtPc ≠ some (.ldDTVx x)) → t.dt.toNat = s.dt.toNat - 1) ∧
    ((∀ x, decode s.wordAtPc ≠ some (.ldSTVx x)) → t.st.toNat = s.st.toNat - 1)

/-- What the spec calls a self-jump (R133 (b), R70): a jump to itself changes nothing but the timers and the step's outputs, for any number of steps. -/
def Obligations.SelfJumpOnlyTicks : Prop :=
  ∀ (s : State) (nnn : Addr) (n : Nat), s.running → s.pc.toNat ≤ 4094 → nnn.toNat = s.pc.toNat →
    decode s.wordAtPc = some (.jp nnn) →
    ∃ t, Host.Core.run Sys2Proof.core (n + 1) s = .next t ∧
      t = { s with dt := t.dt, st := t.st, soundActive := t.soundActive, events := t.events, phase := .run } ∧
      t.dt.toNat = s.dt.toNat - (n + 1) ∧ t.st.toNat = s.st.toNat - (n + 1)

/-- What the spec infers of stores and fetches (R52): a byte FX55 or FX33 writes in one step is the byte a later fetch reads. -/
def Obligations.StoredBytesAreFetched : Prop :=
  (∀ (s : State) (x : RegIx), s.mem.wf → s.i.toNat + x.toNat ≤ 4095 →
    ∃ t, exec (.storeRegs x) s = .next t ∧
      ∀ (pc : Word) (k : Nat), k + 1 ≤ x.toNat → pc.toNat = s.i.toNat + k →
        fetch { t with pc := pc } = some (s.reg (BitVec.ofNat 4 k) ++ s.reg (BitVec.ofNat 4 (k + 1)))) ∧
  ∀ (s : State) (x : RegIx), s.mem.wf → s.i.toNat + 2 ≤ 4095 →
    ∃ t, exec (.ldB x) s = .next t ∧
      fetch { t with pc := s.i } =
        some (BitVec.ofNat 8 ((s.reg x).toNat / 100) ++ BitVec.ofNat 8 ((s.reg x).toNat / 10 % 10))

/-! ## Registers and ALU (spec/44_alu.md) -/

/-- R82, R83, R84: load a constant, add a constant without carry, copy a register. -/
def Obligations.LoadAddConstantAndCopy : Prop :=
  rowDecodes 0x6000 0xF000 (fun w => .ldImm (opX w) (opNN w)) ∧
  rowDecodes 0x7000 0xF000 (fun w => .addImm (opX w) (opNN w)) ∧
  rowDecodes 0x8000 0xF00F (fun w => .ldReg (opX w) (opY w)) ∧
  ∀ (s : State) (x y : RegIx) (nn : Byte),
    (∃ t, exec (.ldImm x nn) s = .next t ∧ regsThenNext s t fun r => if r = x then nn else s.reg r) ∧
    (∃ t, exec (.addImm x nn) s = .next t ∧ regsThenNext s t fun r =>
      if r = x then BitVec.ofNat 8 (((s.reg x).toNat + nn.toNat) % 256) else s.reg r) ∧
    (∃ t, exec (.ldReg x y) s = .next t ∧ regsThenNext s t fun r => if r = x then s.reg y else s.reg r)

/-- R85, R86, R87: OR, AND and XOR write V[X] and then clear VF, so VF ends 0 for X = F too. -/
def Obligations.LogicClearsVF : Prop :=
  rowDecodes 0x8001 0xF00F (fun w => .orReg (opX w) (opY w)) ∧
  rowDecodes 0x8002 0xF00F (fun w => .andReg (opX w) (opY w)) ∧
  rowDecodes 0x8003 0xF00F (fun w => .xorReg (opX w) (opY w)) ∧
  ∀ (s : State) (x y : RegIx),
    (∃ t, exec (.orReg x y) s = .next t ∧ regsThenNext s t fun r =>
      if r = VF then 0 else if r = x then s.reg x ||| s.reg y else s.reg r) ∧
    (∃ t, exec (.andReg x y) s = .next t ∧ regsThenNext s t fun r =>
      if r = VF then 0 else if r = x then s.reg x &&& s.reg y else s.reg r) ∧
    (∃ t, exec (.xorReg x y) s = .next t ∧ regsThenNext s t fun r =>
      if r = VF then 0 else if r = x then s.reg x ^^^ s.reg y else s.reg r)

/-- R88: the sum modulo 256 in V[X] and the carry in VF; for X = F the carry is lost. -/
def Obligations.AddWritesCarryThenSum : Prop :=
  rowDecodes 0x8004 0xF00F (fun w => .addReg (opX w) (opY w)) ∧
  ∀ (s : State) (x y : RegIx), ∃ t, exec (.addReg x y) s = .next t ∧ regsThenNext s t fun r =>
    if r = x then BitVec.ofNat 8 (((s.reg x).toNat + (s.reg y).toNat) % 256)
    else if r = VF then (if (s.reg x).toNat + (s.reg y).toNat > 255 then 1 else 0) else s.reg r

/-- R89 (decision D2): V[X] - V[Y] with the no-borrow flag, and the values where X or Y is F. -/
def Obligations.SubtractByOperandAliasing : Prop :=
  rowDecodes 0x8005 0xF00F (fun w => .subReg (opX w) (opY w)) ∧
  ∀ (s : State) (x y : RegIx) (f : Byte), f = (if (s.reg x).toNat < (s.reg y).toNat then 0 else 1) →
    ∃ t, exec (.subReg x y) s = .next t ∧ regsThenNext s t fun r =>
      if r = x then
        (if x = VF ∧ y = VF then 0 else if x = VF then f - s.reg y else if y = VF then s.reg x - f
          else s.reg x - s.reg y)
      else if r = VF then f else s.reg r

/-- R90 (decision D2): the bit shifted out goes to VF; for X = F, VF ends 0. Y is not read. -/
def Obligations.ShiftRightByOperandAliasing : Prop :=
  rowDecodes 0x8006 0xF00F (fun w => .shr (opX w) (opY w)) ∧
  ∀ (s : State) (x y : RegIx), ∃ t, exec (.shr x y) s = .next t ∧ regsThenNext s t fun r =>
    if r = VF then (if x = VF then 0 else BitVec.ofNat 8 ((s.reg x).toNat % 2))
    else if r = x then BitVec.ofNat 8 ((s.reg x).toNat / 2) else s.reg r

/-- R91 (decision D2): V[Y] - V[X] with the no-borrow flag, and the values where X or Y is F. -/
def Obligations.SubtractReversedByOperandAliasing : Prop :=
  rowDecodes 0x8007 0xF00F (fun w => .subn (opX w) (opY w)) ∧
  ∀ (s : State) (x y : RegIx) (f : Byte), f = (if (s.reg x).toNat > (s.reg y).toNat then 0 else 1) →
    ∃ t, exec (.subn x y) s = .next t ∧ regsThenNext s t fun r =>
      if r = x then
        (if x = VF ∧ y = VF then 0 else if x = VF then s.reg y - f else if y = VF then f - s.reg x
          else s.reg y - s.reg x)
      else if r = VF then f else s.reg r

/-- R92 (decision D2): the bit shifted out goes to VF; for X = F, VF ends 2 if its bit 7 was 1 and else 0. Y is not read. -/
def Obligations.ShiftLeftByOperandAliasing : Prop :=
  rowDecodes 0x800E 0xF00F (fun w => .shl (opX w) (opY w)) ∧
  ∀ (s : State) (x y : RegIx), ∃ t, exec (.shl x y) s = .next t ∧ regsThenNext s t fun r =>
    if r = VF then (if x = VF then (if 128 ≤ (s.reg x).toNat then 2 else 0)
      else if 128 ≤ (s.reg x).toNat then 1 else 0)
    else if r = x then BitVec.ofNat 8 (2 * (s.reg x).toNat % 256) else s.reg r

/-- R93: RND AND NN, for every RND the host gives; where it gives none the byte is a free value, of which nothing is
claimed (log entry 3). Only V[X], PC and the model's count of free values change. -/
def Obligations.RandomByteIsMasked : Prop :=
  rowDecodes 0xC000 0xF000 (fun w => .rnd (opX w) (opNN w)) ∧
  ∀ (s : State) (x : RegIx) (nn : Byte), ∃ t draw, exec (.rnd x nn) s = .next t ∧
    (∀ b, s.rndInput = some b → draw = b) ∧ (∀ r, t.reg r = if r = x then draw &&& nn else s.reg r) ∧
    t = { s with v := t.v, pc := s.pc + 2, fresh := t.fresh } ∧ sameBytes s t

/-! ## Skips and jumps (spec/43_skip.md, spec/42_flow.md) -/

/-- R74, R75, R76, R77: PC advances by 4 when the condition holds and by 2 otherwise; nothing else changes. -/
def Obligations.ConditionalSkipsMovePc : Prop :=
  rowDecodes 0x3000 0xF000 (fun w => .seImm (opX w) (opNN w)) ∧
  rowDecodes 0x4000 0xF000 (fun w => .sneImm (opX w) (opNN w)) ∧
  rowDecodes 0x5000 0xF00F (fun w => .seReg (opX w) (opY w)) ∧
  rowDecodes 0x9000 0xF00F (fun w => .sneReg (opX w) (opY w)) ∧
  ∀ (s : State) (x y : RegIx) (nn : Byte),
    exec (.seImm x nn) s = .next { s with pc := s.pc + if s.reg x = nn then 4 else 2 } ∧
    exec (.sneImm x nn) s = .next { s with pc := s.pc + if s.reg x ≠ nn then 4 else 2 } ∧
    exec (.seReg x y) s = .next { s with pc := s.pc + if s.reg x = s.reg y then 4 else 2 } ∧
    exec (.sneReg x y) s = .next { s with pc := s.pc + if s.reg x ≠ s.reg y then 4 else 2 }

/-- R78, R79: with V[X] at most 15 the key skips complete by the key's level; above 15 they take KeyIndexFault. -/
def Obligations.KeySkipsMovePcOrFault : Prop :=
  rowDecodes 0xE09E 0xF0FF (fun w => .skp (opX w)) ∧
  rowDecodes 0xE0A1 0xF0FF (fun w => .sknp (opX w)) ∧
  ∀ (s : State) (x : RegIx),
    ((s.reg x).toNat ≤ 15 →
      exec (.skp x) s =
        .next { s with pc := s.pc + if s.keyDown (s.reg x).toNat = true then 4 else 2 } ∧
      exec (.sknp x) s =
        .next { s with pc := s.pc + if s.keyDown (s.reg x).toNat = false then 4 else 2 }) ∧
    (15 < (s.reg x).toNat →
      exec (.skp x) s = .next (s.faulted .keyIndex (some (encode (.skp x))) (some (s.reg x).toNat)) ∧
      exec (.sknp x) s = .next (s.faulted .keyIndex (some (encode (.sknp x))) (some (s.reg x).toNat)))

/-- R70, R72: the jumps set PC to NNN and to NNN + V0, not reduced; nothing else changes. -/
def Obligations.JumpsSetPc : Prop :=
  rowDecodes 0x1000 0xF000 (fun w => .jp (opNNN w)) ∧
  rowDecodes 0xB000 0xF000 (fun w => .jpV0 (opNNN w)) ∧
  ∀ (s : State) (nnn : Addr),
    (∃ t, exec (.jp nnn) s = .next t ∧ t.pc.toNat = nnn.toNat ∧ t = { s with pc := t.pc } ∧ sameBytes s t) ∧
    (∃ t, exec (.jpV0 nnn) s = .next t ∧ t.pc.toNat = nnn.toNat + (s.reg 0).toNat ∧ t = { s with pc := t.pc } ∧
      sameBytes s t)

/-- R71: a call pushes its own address and jumps; with SP = 16 it takes StackOverflowFault. -/
def Obligations.CallPushesItsOwnAddress : Prop :=
  rowDecodes 0x2000 0xF000 (fun w => .call (opNNN w)) ∧
  ∀ (s : State) (nnn : Addr),
    (s.sp.val < 16 → ∃ t, exec (.call nnn) s = .next t ∧ t.pc.toNat = nnn.toNat ∧ t.sp.val = s.sp.val + 1 ∧
      (∀ j (h : j < 16), t.stack[j] = if j = s.sp.val then s.pc else s.stack[j]) ∧
      t = { s with pc := t.pc, sp := t.sp, stack := t.stack } ∧ sameBytes s t) ∧
    (s.sp.val = 16 → exec (.call nnn) s = .next (s.faulted .stackOverflow (some (encode (.call nnn))) none))

/-- R69: a return goes on after the call whose address the top entry holds; with SP = 0 it takes
StackUnderflowFault. -/
def Obligations.ReturnGoesAfterTheCall : Prop :=
  rowDecodes 0x00EE 0xFFFF (fun _ => .ret) ∧
  ∀ s : State,
    (∀ j (h : j < 16), s.sp.val = j + 1 → ∃ t, exec .ret s = .next t ∧ t.pc = s.stack[j] + 2 ∧ t.sp.val = j ∧
      t = { s with pc := t.pc, sp := t.sp } ∧ sameBytes s t) ∧
    (s.sp.val = 0 → exec .ret s = .next (s.faulted .stackUnderflow (some 0x00EE) none))

/-- R69 and R71 together: whatever runs between, a return that finds SP and the stack as the call left them ends two
past the call, with SP as it was before it. -/
def Obligations.ReturnUndoesTheCall : Prop :=
  ∀ (s t u : State) (nnn : Addr), s.sp.val < 16 → exec (.call nnn) s = .next t → u.sp = t.sp → u.stack = t.stack →
    ∃ v, exec .ret u = .next v ∧ v.pc = s.pc + 2 ∧ v.sp = s.sp ∧ v.stack = u.stack ∧ v.v = u.v

/-! ## I and memory (spec/45_index_memory.md) -/

/-- R94, R96: I becomes NNN, and V[X] * 5; nothing else but PC changes. -/
def Obligations.IndexLoads : Prop :=
  rowDecodes 0xA000 0xF000 (fun w => .ldI (opNNN w)) ∧
  rowDecodes 0xF029 0xF0FF (fun w => .ldF (opX w)) ∧
  ∀ (s : State) (nnn : Addr) (x : RegIx),
    (∃ t, exec (.ldI nnn) s = .next t ∧ t.i.toNat = nnn.toNat ∧ t = { s with i := t.i, pc := s.pc + 2 } ∧
      sameBytes s t) ∧
    (∃ t, exec (.ldF x) s = .next t ∧ t.i.toNat = (s.reg x).toNat * 5 ∧ t = { s with i := t.i, pc := s.pc + 2 } ∧
      sameBytes s t)

/-- R95 (decision D2): VF tells whether I + V[X] leaves memory, and I grows modulo 65536 by V[X], which for X = F is the flag just
written. -/
def Obligations.IndexAddWritesRangeFlag : Prop :=
  rowDecodes 0xF01E 0xF0FF (fun w => .addI (opX w)) ∧
  ∀ (s : State) (x : RegIx) (f : Byte), f = (if s.i.toNat + (s.reg x).toNat > 4095 then 1 else 0) →
    ∃ t, exec (.addI x) s = .next t ∧ (∀ r, t.reg r = if r = VF then f else s.reg r) ∧
      t.i.toNat = (s.i.toNat + (if x = VF then f else s.reg x).toNat) % 65536 ∧
      t = { s with v := t.v, i := t.i, pc := s.pc + 2 } ∧ sameBytes s t

/-- R97: the three digits at I, I + 1, I + 2 and no other byte; DataBoundsFault where they do not all lie in
memory. -/
def Obligations.DecimalDigitsAreStored : Prop :=
  rowDecodes 0xF033 0xF0FF (fun w => .ldB (opX w)) ∧
  ∀ (s : State) (x : RegIx), s.mem.wf →
    (s.i.toNat + 2 ≤ 4095 → ∃ t, exec (.ldB x) s = .next t ∧
      (t.byteAt s.i.toNat).toNat = (s.reg x).toNat / 100 ∧
      (t.byteAt (s.i.toNat + 1)).toNat = (s.reg x).toNat / 10 % 10 ∧
      (t.byteAt (s.i.toNat + 2)).toNat = (s.reg x).toNat % 10 ∧
      (∀ a, a < s.i.toNat ∨ s.i.toNat + 2 < a → t.byteAt a = s.byteAt a) ∧
      t = { s with mem := t.mem, pc := s.pc + 2 }) ∧
    (4095 < s.i.toNat + 2 → exec (.ldB x) s =
      .next (s.faulted .dataBounds (some (encode (.ldB x))) (some (max s.i.toNat 4096))))

/-- R98: V0..VX at I..I + X and no other byte, and I moved past them; DataBoundsFault where they do not all lie in
memory. -/
def Obligations.RegisterBlockIsStored : Prop :=
  rowDecodes 0xF055 0xF0FF (fun w => .storeRegs (opX w)) ∧
  ∀ (s : State) (x : RegIx), s.mem.wf →
    (s.i.toNat + x.toNat ≤ 4095 → ∃ t, exec (.storeRegs x) s = .next t ∧
      (∀ r : RegIx, r.toNat ≤ x.toNat → t.byteAt (s.i.toNat + r.toNat) = s.reg r) ∧
      (∀ a, a < s.i.toNat ∨ s.i.toNat + x.toNat < a → t.byteAt a = s.byteAt a) ∧
      t.i.toNat = (s.i.toNat + x.toNat + 1) % 65536 ∧ t = { s with mem := t.mem, i := t.i, pc := s.pc + 2 }) ∧
    (4095 < s.i.toNat + x.toNat → exec (.storeRegs x) s =
      .next (s.faulted .dataBounds (some (encode (.storeRegs x))) (some (max s.i.toNat 4096))))

/-- R99: V0..VX from I..I + X, the other registers as before, and I moved past them; DataBoundsFault where the bytes
do not all lie in memory. -/
def Obligations.RegisterBlockIsLoaded : Prop :=
  rowDecodes 0xF065 0xF0FF (fun w => .loadRegs (opX w)) ∧
  ∀ (s : State) (x : RegIx),
    (s.i.toNat + x.toNat ≤ 4095 → ∃ t, exec (.loadRegs x) s = .next t ∧
      (∀ r : RegIx, t.reg r = if r.toNat ≤ x.toNat then s.byteAt (s.i.toNat + r.toNat) else s.reg r) ∧
      t.i.toNat = (s.i.toNat + x.toNat + 1) % 65536 ∧ t = { s with v := t.v, i := t.i, pc := s.pc + 2 } ∧
      sameBytes s t) ∧
    (4095 < s.i.toNat + x.toNat → exec (.loadRegs x) s =
      .next (s.faulted .dataBounds (some (encode (.loadRegs x))) (some (max s.i.toNat 4096))))

/-- R98 and R99 together: what FX55 stored, FX65 with I where it was loads back, whatever the registers hold by then. -/
def Obligations.LoadAfterStoreRestoresRegisters : Prop :=
  ∀ (s t u : State) (x : RegIx), s.mem.wf → s.i.toNat + x.toNat ≤ 4095 → exec (.storeRegs x) s = .next t →
    u.mem = t.mem → u.i = s.i →
    ∃ v, exec (.loadRegs x) u = .next v ∧
      ∀ r : RegIx, v.reg r = if r.toNat ≤ x.toNat then s.reg r else u.reg r

/-! ## Timers, keys and the display -/

/-- R101, R103, R104: the timer reads and writes, before the tick of their step. -/
def Obligations.TimerTransfers : Prop :=
  rowDecodes 0xF007 0xF0FF (fun w => .ldVxDT (opX w)) ∧
  rowDecodes 0xF015 0xF0FF (fun w => .ldDTVx (opX w)) ∧
  rowDecodes 0xF018 0xF0FF (fun w => .ldSTVx (opX w)) ∧
  ∀ (s : State) (x : RegIx),
    (∃ t, exec (.ldVxDT x) s = .next t ∧ regsThenNext s t fun r => if r = x then s.dt else s.reg r) ∧
    exec (.ldDTVx x) s = .next { s with dt := s.reg x, pc := s.pc + 2 } ∧
    exec (.ldSTVx x) s = .next { s with st := s.reg x, pc := s.pc + 2 }

/-- What the spec infers of the timer instructions and their step's tick (R101, R103, R104, R135): FX07 reads before
it, FX15 leaves DT one lower than it wrote, FX18 sounds in its own step exactly when V[X] > 0. -/
def Obligations.TimerInstructionsAreTickedInTheirStep : Prop :=
  ∀ (s : State) (x : RegIx), s.running → s.pc.toNat ≤ 4094 →
    (decode s.wordAtPc = some (.ldVxDT x) → ∃ t, step s = .next t ∧ t.reg x = s.dt ∧ t.dt.toNat = s.dt.toNat - 1) ∧
    (decode s.wordAtPc = some (.ldDTVx x) → ∃ t, step s = .next t ∧ t.dt.toNat = (s.reg x).toNat - 1) ∧
    (decode s.wordAtPc = some (.ldSTVx x) → ∃ t, step s = .next t ∧ t.st.toNat = (s.reg x).toNat - 1 ∧
      (t.soundActive = true ↔ 0 < (s.reg x).toNat) ∧
      (.alert ∈ t.events ↔ s.soundEnable = true ∧ 0 < (s.reg x).toNat))

/-- R102: with a key down, V[X] is the highest pressed index; with none, nothing is written and PC stays. -/
def Obligations.KeyWaitTakesTheHighestKey : Prop :=
  rowDecodes 0xF00A 0xF0FF (fun w => .ldVxK (opX w)) ∧
  ∀ (s : State) (x : RegIx),
    (∀ k, k < 16 → s.keyDown k = true → (∀ j, k < j → j < 16 → s.keyDown j = false) →
      ∃ t, exec (.ldVxK x) s = .next t ∧ regsThenNext s t fun r => if r = x then BitVec.ofNat 8 k else s.reg r) ∧
    ((∀ k, k < 16 → s.keyDown k = false) → exec (.ldVxK x) s = .next s)

/-- What the spec calls a key wait (R133 (d), R102, R127): with no key down a block at an FX0A only ticks, for any number of steps. -/
def Obligations.KeyWaitOnlyTicks : Prop :=
  ∀ (s : State) (x : RegIx) (n : Nat), s.running → s.pc.toNat ≤ 4094 → decode s.wordAtPc = some (.ldVxK x) →
    (∀ k, k < 16 → s.keyDown k = false) →
    ∃ t, Host.Core.run Sys2Proof.core (n + 1) s = .next t ∧
      t = { s with dt := t.dt, st := t.st, soundActive := t.soundActive, events := t.events, phase := .run } ∧
      t.dt.toNat = s.dt.toNat - (n + 1) ∧ t.st.toNat = s.st.toNat - (n + 1)

/-- R67: every pixel 0, draw_flag 1, and nothing else but PC. -/
def Obligations.ClearScreenClearsEveryPixel : Prop :=
  rowDecodes 0x00E0 0xFFFF (fun _ => .cls) ∧
  ∀ s : State, ∃ t, exec .cls s = .next t ∧ (∀ k, k < 2048 → t.pixel k = false) ∧ t.drawFlag = true ∧
    t = { s with fb := t.fb, drawFlag := t.drawFlag, pc := s.pc + 2 } ∧ sameBytes s t

/-- R68 (bit order and the cleared VF: decisions D9, D10): a pixel is inverted exactly where the sprite has a set bit, VF tells whether a set pixel was cleared, and
nothing else but draw_flag and PC changes; DataBoundsFault where the sprite's bytes do not all lie in memory. -/
def Obligations.DrawInvertsTheSpritesPixels : Prop :=
  rowDecodes 0xD000 0xF000 (fun w => .drw (opX w) (opY w) (opN w)) ∧
  ∀ (s : State) (x y : RegIx) (n : Nibble),
    (n.toNat = 0 ∨ s.i.toNat + n.toNat - 1 ≤ 4095 → ∃ t, exec (.drw x y n) s = .next t ∧
      (∀ k, k < 2048 → (t.pixel k ≠ s.pixel k ↔ s.spriteHas (s.reg x).toNat (s.reg y).toNat n.toNat k)) ∧
      ((t.reg VF = 1 ∧ ∃ k, k < 2048 ∧ s.pixel k = true ∧ t.pixel k = false) ∨
        (t.reg VF = 0 ∧ ∀ k, k < 2048 → s.pixel k = true → t.pixel k = true)) ∧
      (∀ r, r ≠ VF → t.reg r = s.reg r) ∧ t.drawFlag = true ∧
      t = { s with v := t.v, fb := t.fb, drawFlag := t.drawFlag, pc := s.pc + 2 } ∧ sameBytes s t) ∧
    (n.toNat ≠ 0 → 4095 < s.i.toNat + n.toNat - 1 → exec (.drw x y n) s =
      .next (s.faulted .dataBounds (some (encode (.drw x y n))) (some (max s.i.toNat 4096))))

/-- R68, and the property W9 of spec/95_test_vectors.md: drawing the same sprite again at the same place restores the
framebuffer, and from a clear screen a sprite with a set bit collides on the second draw. -/
def Obligations.DrawTwiceRestoresTheScreen : Prop :=
  ∀ (s t : State) (x y : RegIx) (n : Nibble), x ≠ VF → y ≠ VF → exec (.drw x y n) s = .next t → t.halted = false →
    s.halted = false →
    ∃ u, exec (.drw x y n) t = .next u ∧ u.fb = s.fb ∧
      ((∀ k, k < 2048 → s.pixel k = false) →
        (∃ k, k < 2048 ∧ s.spriteHas (s.reg x).toNat (s.reg y).toNat n.toNat k) → u.reg VF = 1)

/-! ## What no instruction does -/

/-- R15, R16: an instruction that answers a next state leaves every register its rule does not write. -/
def Obligations.OtherRegistersKeepTheirValue : Prop :=
  ∀ (ins : Instr) (s t : State) (r : RegIx), exec ins s = .next t → ¬ mayWriteReg ins r → t.reg r = s.reg r

/-- R21, R22: only 2NNN writes the stack, and only 2NNN and 00EE write SP. -/
def Obligations.OnlyCallAndReturnTouchTheStack : Prop :=
  ∀ (ins : Instr) (s t : State), exec ins s = .next t → (∀ nnn, ins ≠ .call nnn) →
    t.stack = s.stack ∧ (ins ≠ .ret → t.sp = s.sp)

/-- R45: only FX33 and FX55 write memory, and no instruction changes the parameter FONT. -/
def Obligations.OnlyStoresWriteMemory : Prop :=
  ∀ (ins : Instr) (s t : State), exec ins s = .next t →
    t.mem.font = s.mem.font ∧
    ((∀ x, ins ≠ .ldB x) → (∀ x, ins ≠ .storeRegs x) → t.mem = s.mem ∧ sameBytes s t)

/-- R26: only 00E0 and DXYN write the framebuffer; they set draw_flag unless they fault, and no instruction clears
it. -/
def Obligations.OnlyClearAndDrawTouchTheDisplay : Prop :=
  ∀ (ins : Instr) (s t : State), exec ins s = .next t →
    ((ins ≠ .cls ∧ ∀ x y n, ins ≠ .drw x y n) → t.fb = s.fb ∧ t.drawFlag = s.drawFlag) ∧
    ((ins = .cls ∨ ∃ x y n, ins = .drw x y n) → s.halted = false → t.halted = false → t.drawFlag = true) ∧
    (s.drawFlag = true → t.drawFlag = true)

/-- R17, R24, R35, R117: only the listed instructions write I; only FX15 writes DT and only FX18 writes ST; and no
instruction writes a key, the load phase or an input of the step. -/
def Obligations.OnlyTheListedInstructionsWriteIAndTimers : Prop :=
  ∀ (ins : Instr) (s t : State), exec ins s = .next t →
    (¬ writesI ins → t.i = s.i) ∧ ((∀ x, ins ≠ .ldDTVx x) → t.dt = s.dt) ∧
    ((∀ x, ins ≠ .ldSTVx x) → t.st = s.st) ∧ t.keys = s.keys ∧ t.phase = s.phase ∧
    t.traceEnable = s.traceEnable ∧ t.soundEnable = s.soundEnable ∧ t.rndInput = s.rndInput

/-- R119, R124: the inputs trace_enable and sound_enable decide which events a step emits and nothing else. -/
def Obligations.TraceAndSoundInputsChangeNoState : Prop :=
  ∀ (s t : State) (trace sound : Bool), step s = .next t →
    ∃ u, step { s with traceEnable := trace, soundEnable := sound } = .next u ∧
      u = { t with traceEnable := trace, soundEnable := sound, events := u.events }

/-- R123: whether the host clears the draw flag changes nothing else of any step. -/
def Obligations.DrawFlagIsNotObservable : Prop :=
  ∀ (s t : State) (b : Bool), step s = .next t →
    ∃ u, step { s with drawFlag := b } = .next u ∧ u = { t with drawFlag := u.drawFlag }

/-! ## The host's operations -/

/-- R131: LoadROM in phase BOOT places byte i at 512 + i and nothing else; too long an image fails, leaves only the
program area unknown and poisons the block, so that a Step is refused until Reset; in another phase the load is refused. The
first step ends phase BOOT. -/
def Obligations.LoadRomPlacesTheImage : Prop :=
  (∀ (s : State) (bytes : List Byte), s.mem.wf →
    (s.phase = .boot → bytes.length ≤ 3584 → ∃ t, loadRom bytes s = (t, .loadSuccess) ∧
      (∀ k (h : k < bytes.length), t.byteAt (512 + k) = bytes[k]) ∧
      (∀ a, a < 512 ∨ 512 + bytes.length ≤ a → t.byteAt a = s.byteAt a) ∧ t = { s with mem := t.mem }) ∧
    (s.phase = .boot → 3584 < bytes.length → ∃ t, loadRom bytes s = (t, .loadFailure) ∧ t.phase = .poisoned ∧
      (∀ a, a < 512 → t.byteAt a = s.byteAt a) ∧ step t = .refused .poisoned ∧
      (hostReset t).phase = .boot ∧ t = { s with mem := t.mem, phase := .poisoned, fresh := t.fresh }) ∧
    (s.phase ≠ .boot → loadRom bytes s = (s, .refused))) ∧
  ∀ s t : State, s.phase = .boot → s.halted = false → step s = .next t → t.phase = .run

/-- R121, R122, R123: SetKey writes one key and refuses others; the reads answer the state and change none;
ClearDrawFlag clears draw_flag alone. -/
def Obligations.HostAccessesAreAsListed : Prop :=
  ∀ s : State,
    (∀ k v, k < 16 → v < 2 → ∃ t, hostOp (.setKey k v) s = (t, .done) ∧ t = { s with keys := t.keys } ∧
      ∀ j, j < 16 → t.keyDown j = if j = k then decide (v = 1) else s.keyDown j) ∧
    (∀ k v, 15 < k ∨ 1 < v → hostOp (.setKey k v) s = (s, .refused)) ∧
    (∀ k, k < 2048 → hostOp (.readPixel k) s = (s, .bit (s.pixel k))) ∧
    (∀ k, 2047 < k → hostOp (.readPixel k) s = (s, .refused)) ∧
    hostOp .readDrawFlag s = (s, .bit s.drawFlag) ∧ hostOp .readFault s = (s, .faultRecord s.faultRecord) ∧
    hostOp .clearDrawFlag s = ({ s with drawFlag := false }, .done)

/-- R128, R130: the host's Reset is construction: from any state the block is as R34 lists it. What stays as it was is
not state of the block: the parameter FONT, the inputs presented and the count of free values (the model's choice, log
entry 11). -/
def Obligations.HostResetIsConstruction : Prop :=
  ∀ s : State, ∃ t, hostOp .reset s = (t, .done) ∧
    t = { State.resetWith s.mem.font with
      traceEnable := s.traceEnable, soundEnable := s.soundEnable, rndInput := s.rndInput, fresh := s.fresh } ∧
    t.Inv
end

