-- ==== Sys2Proof/Laws/Encoding.lean ====
section
/-! SUPPORT. The fields of a word built in one of R54's formats, and such a word under R58's masks: what every proof
about decoding and encoding rests on. -/

namespace Sys2Proof

/-! ## The bits of a word in each format -/

theorem bit_FA (f : Nibble) (a : Addr) (i : Nat) : BitVec.getLsbD (w := 16) (f ++ a) i =
    if i < 12 then a.getLsbD i else f.getLsbD (i - 12) :=
  BitVec.getLsbD_append

theorem bit_FXNN (f : Nibble) (x : RegIx) (k : Byte) (i : Nat) : BitVec.getLsbD (w := 16) (f ++ x ++ k) i =
    if i < 8 then k.getLsbD i else if i - 8 < 4 then x.getLsbD (i - 8) else f.getLsbD (i - 8 - 4) :=
  BitVec.getLsbD_append.trans (by rw [BitVec.getLsbD_append])

theorem bit_FXYN (f : Nibble) (x y : RegIx) (n : Nibble) (i : Nat) :
    BitVec.getLsbD (w := 16) (f ++ x ++ y ++ n) i =
      if i < 4 then n.getLsbD i else if i - 4 < 4 then y.getLsbD (i - 4)
      else if i - 4 - 4 < 4 then x.getLsbD (i - 4 - 4) else f.getLsbD (i - 4 - 4 - 4) :=
  BitVec.getLsbD_append.trans (by rw [BitVec.getLsbD_append, BitVec.getLsbD_append])

theorem bit_bytes (hi lo : Byte) (i : Nat) : BitVec.getLsbD (w := 16) (hi ++ lo) i =
    if i < 8 then lo.getLsbD i else hi.getLsbD (i - 8) :=
  BitVec.getLsbD_append

/-! ## Format FA: fam, NNN -/

@[simp] theorem opFam_FA (f : Nibble) (a : Addr) : opFam (f ++ a) = f := by
  apply BitVec.eq_of_getLsbD_eq; intro i hi
  rw [opFam, BitVec.getLsbD_extractLsb', bit_FA]
  simp only [hi, decide_true, Bool.true_and]
  split_ifs <;> first | omega | (congr 1; omega)

@[simp] theorem opNNN_FA (f : Nibble) (a : Addr) : opNNN (f ++ a) = a := by
  apply BitVec.eq_of_getLsbD_eq; intro i hi
  rw [opNNN, BitVec.getLsbD_extractLsb', bit_FA]
  simp only [hi, decide_true, Bool.true_and]
  split_ifs <;> first | omega | (congr 1; omega)

/-! ## Formats FXNN and FX: fam, X, NN -/

@[simp] theorem opFam_FXNN (f : Nibble) (x : RegIx) (k : Byte) : opFam (f ++ x ++ k) = f := by
  apply BitVec.eq_of_getLsbD_eq; intro i hi
  rw [opFam, BitVec.getLsbD_extractLsb', bit_FXNN]
  simp only [hi, decide_true, Bool.true_and]
  split_ifs <;> first | omega | (congr 1; omega)

@[simp] theorem opX_FXNN (f : Nibble) (x : RegIx) (k : Byte) : opX (f ++ x ++ k) = x := by
  apply BitVec.eq_of_getLsbD_eq; intro i hi
  rw [opX, BitVec.getLsbD_extractLsb', bit_FXNN]
  simp only [hi, decide_true, Bool.true_and]
  split_ifs <;> first | omega | (congr 1; omega)

@[simp] theorem opNN_FXNN (f : Nibble) (x : RegIx) (k : Byte) : opNN (f ++ x ++ k) = k := by
  apply BitVec.eq_of_getLsbD_eq; intro i hi
  rw [opNN, BitVec.getLsbD_extractLsb', bit_FXNN]
  simp only [hi, decide_true, Bool.true_and]
  split_ifs <;> first | omega | (congr 1; omega)

/-! ## Formats FXY and FXYN: fam, X, Y, N -/

@[simp] theorem opFam_FXYN (f : Nibble) (x y : RegIx) (n : Nibble) : opFam (f ++ x ++ y ++ n) = f := by
  apply BitVec.eq_of_getLsbD_eq; intro i hi
  rw [opFam, BitVec.getLsbD_extractLsb', bit_FXYN]
  simp only [hi, decide_true, Bool.true_and]
  split_ifs <;> first | omega | (congr 1; omega)

@[simp] theorem opX_FXYN (f : Nibble) (x y : RegIx) (n : Nibble) : opX (f ++ x ++ y ++ n) = x := by
  apply BitVec.eq_of_getLsbD_eq; intro i hi
  rw [opX, BitVec.getLsbD_extractLsb', bit_FXYN]
  simp only [hi, decide_true, Bool.true_and]
  split_ifs <;> first | omega | (congr 1; omega)

@[simp] theorem opY_FXYN (f : Nibble) (x y : RegIx) (n : Nibble) : opY (f ++ x ++ y ++ n) = y := by
  apply BitVec.eq_of_getLsbD_eq; intro i hi
  rw [opY, BitVec.getLsbD_extractLsb', bit_FXYN]
  simp only [hi, decide_true, Bool.true_and]
  split_ifs <;> first | omega | (congr 1; omega)

@[simp] theorem opN_FXYN (f : Nibble) (x y : RegIx) (n : Nibble) : opN (f ++ x ++ y ++ n) = n := by
  apply BitVec.eq_of_getLsbD_eq; intro i hi
  rw [opN, BitVec.getLsbD_extractLsb', bit_FXYN]
  simp only [hi, decide_true, Bool.true_and]
  split_ifs <;> first | omega | (congr 1; omega)

/-! ## A word put together from its own fields -/

theorem word_FA (w : Word) : opFam w ++ opNNN w = w := by
  apply BitVec.eq_of_getLsbD_eq; intro i hi
  rw [bit_FA]; simp only [opFam, opNNN, BitVec.getLsbD_extractLsb']
  split
  · simp_all
  · rw [show 12 + (i - 12) = i by omega]; simp; omega

theorem word_FXNN (w : Word) : opFam w ++ opX w ++ opNN w = w := by
  apply BitVec.eq_of_getLsbD_eq; intro i hi
  rw [bit_FXNN]; simp only [opFam, opX, opNN, BitVec.getLsbD_extractLsb']
  split
  · simp_all
  · split
    · rw [show 8 + (i - 8) = i by omega]; simp_all
    · rw [show 12 + (i - 8 - 4) = i by omega]; simp; omega

theorem word_FXYN (w : Word) : opFam w ++ opX w ++ opY w ++ opN w = w := by
  apply BitVec.eq_of_getLsbD_eq; intro i hi
  rw [bit_FXYN]; simp only [opFam, opX, opY, opN, BitVec.getLsbD_extractLsb']
  split
  · simp_all
  · split
    · rw [show 4 + (i - 4) = i by omega]; simp_all
    · split
      · rw [show 8 + (i - 4 - 4) = i by omega]; simp_all
      · rw [show 12 + (i - 4 - 4 - 4) = i by omega]; simp; omega

/-- The bytes memory holds a word in make that word again (R43). -/
theorem wordOfBytes_bytes (w : Word) : wordOfBytes (w.extractLsb' 8 8) (w.extractLsb' 0 8) = w := by
  apply BitVec.eq_of_getLsbD_eq; intro i hi
  rw [wordOfBytes, bit_bytes]; simp only [BitVec.getLsbD_extractLsb']
  split
  · simp_all
  · rw [show 8 + (i - 8) = i by omega]; simp; omega

/-! ## Under R58's masks -/

theorem mask_FA (f : Nibble) (a : Addr) : (f ++ a) &&& 0xF000#16 = f ++ 0#12 := by
  apply BitVec.eq_of_getLsbD_eq; intro i hi
  rw [BitVec.getLsbD_and, bit_FA, bit_FA]
  interval_cases i <;> simp

theorem mask_FXNN (f : Nibble) (x : RegIx) (k : Byte) : (f ++ x ++ k) &&& 0xF000#16 = f ++ 0#4 ++ 0#8 := by
  apply BitVec.eq_of_getLsbD_eq; intro i hi
  rw [BitVec.getLsbD_and, bit_FXNN, bit_FXNN]
  interval_cases i <;> simp

theorem mask_FX (f : Nibble) (x : RegIx) (k : Byte) : (f ++ x ++ k) &&& 0xF0FF#16 = f ++ 0#4 ++ k := by
  apply BitVec.eq_of_getLsbD_eq; intro i hi
  rw [BitVec.getLsbD_and, bit_FXNN, bit_FXNN]
  interval_cases i <;> simp

theorem mask_FXY (f : Nibble) (x y : RegIx) (n : Nibble) :
    (f ++ x ++ y ++ n) &&& 0xF00F#16 = f ++ 0#4 ++ 0#4 ++ n := by
  apply BitVec.eq_of_getLsbD_eq; intro i hi
  rw [BitVec.getLsbD_and, bit_FXYN, bit_FXYN]
  interval_cases i <;> simp

theorem mask_FXYN (f : Nibble) (x y : RegIx) (n : Nibble) :
    (f ++ x ++ y ++ n) &&& 0xF000#16 = f ++ 0#4 ++ 0#4 ++ 0#4 := by
  apply BitVec.eq_of_getLsbD_eq; intro i hi
  rw [BitVec.getLsbD_and, bit_FXYN, bit_FXYN]
  interval_cases i <;> simp

/-! ## What a word that matches a row has in its fields -/

theorem opFam_of_F000 {w b : Word} (h : w &&& 0xF000#16 = b) : opFam w = opFam b := by
  subst h
  apply BitVec.eq_of_getLsbD_eq; intro i hi
  simp only [opFam, BitVec.getLsbD_extractLsb', BitVec.getLsbD_and]
  interval_cases i <;> simp

theorem opFam_of_F00F {w b : Word} (h : w &&& 0xF00F#16 = b) : opFam w = opFam b ∧ opN w = opN b := by
  subst h
  constructor <;> apply BitVec.eq_of_getLsbD_eq <;> intro i hi <;>
    simp only [opFam, opN, BitVec.getLsbD_extractLsb', BitVec.getLsbD_and] <;> interval_cases i <;> simp

theorem opFam_of_F0FF {w b : Word} (h : w &&& 0xF0FF#16 = b) : opFam w = opFam b ∧ opNN w = opNN b := by
  subst h
  constructor <;> apply BitVec.eq_of_getLsbD_eq <;> intro i hi <;>
    simp only [opFam, opNN, BitVec.getLsbD_extractLsb', BitVec.getLsbD_and] <;> interval_cases i <;> simp

end Sys2Proof
end

