-- ==== Sys2Proof/Laws/Memory.lean ====
section
/-! SUPPORT. The laws of memory: read after write, a write leaves every other address alone, every write keeps the
canonical form, and memories in that form that read alike are equal. -/

namespace Sys2Proof.Machine

/-- A cell list in rising order, as `Memory.wf` has it. -/
abbrev Rising (cells : List Host.Cell) : Prop := cells.Pairwise fun c d => c.1 < d.1

theorem getCell_absent {base : Byte} {a : Nat} {cells : List Host.Cell} (h : ∀ c ∈ cells, a ≠ c.1) :
    getCell base a cells = base := by
  induction cells with
  | nil => rfl
  | cons c rest ih =>
    obtain ⟨b, u⟩ := c
    simp only [getCell, if_neg (h (b, u) (by simp))]
    exact ih fun c hc => h c (by simp [hc])

theorem getCell_of_mem {base : Byte} {cells : List Host.Cell} (hr : Rising cells) {c : Host.Cell} (hc : c ∈ cells) :
    getCell base c.1 cells = c.2 := by
  induction cells with
  | nil => simp at hc
  | cons d rest ih =>
    obtain ⟨hd, hrest⟩ := List.pairwise_cons.1 hr
    rcases List.mem_cons.1 hc with rfl | hrestc
    · simp [getCell]
    · have hne : c.1 ≠ d.1 := (hd c hrestc).ne'
      obtain ⟨b, u⟩ := d
      simp only [getCell, if_neg hne]
      exact ih hrest hrestc

theorem mem_putCell {base v : Byte} {a : Nat} {cells : List Host.Cell} {c : Host.Cell}
    (h : c ∈ putCell base a v cells) : c ∈ cells ∨ c = (a, v) ∧ v ≠ base := by
  induction cells with
  | nil => by_cases hv : v = base <;> simp_all [putCell]
  | cons d rest ih =>
    obtain ⟨b, u⟩ := d
    simp only [putCell] at h
    split_ifs at h <;> simp only [List.mem_cons] at h ⊢ <;> tauto

theorem rising_putCell {base v : Byte} {a : Nat} {cells : List Host.Cell} (hr : Rising cells) :
    Rising (putCell base a v cells) := by
  induction cells with
  | nil => by_cases hv : v = base <;> simp [putCell, hv]
  | cons d rest ih =>
    obtain ⟨b, u⟩ := d
    obtain ⟨hd, hrest⟩ := List.pairwise_cons.1 hr
    simp only [putCell]
    split_ifs with hlt hv heq hv
    · exact hr
    · refine List.pairwise_cons.2 ⟨fun c hc => ?_, hr⟩
      rcases List.mem_cons.1 hc with rfl | hc
      · exact hlt
      · exact hlt.trans (hd c hc)
    · exact hrest
    · subst heq; exact List.pairwise_cons.2 ⟨hd, hrest⟩
    · refine List.pairwise_cons.2 ⟨fun c hc => ?_, ih hrest⟩
      rcases mem_putCell hc with hc | ⟨rfl, -⟩
      · exact hd c hc
      · simp only; omega

theorem getCell_putCell_same {base v : Byte} {a : Nat} {cells : List Host.Cell} (hr : Rising cells) :
    getCell base a (putCell base a v cells) = v := by
  induction cells with
  | nil => by_cases hv : v = base <;> simp [putCell, getCell, hv]
  | cons d rest ih =>
    obtain ⟨b, u⟩ := d
    obtain ⟨hd, hrest⟩ := List.pairwise_cons.1 hr
    simp only [putCell]
    split_ifs with hlt hv heq hv
    · subst hv
      refine getCell_absent fun c hc => ?_
      rcases List.mem_cons.1 hc with rfl | hc
      · exact hlt.ne
      · exact (hlt.trans (hd c hc)).ne
    · simp [getCell]
    · subst hv heq
      exact getCell_absent fun c hc => (hd c hc).ne
    · simp [getCell]
    · simp only [getCell, if_neg heq]; exact ih hrest

theorem getCell_putCell_other {base base' v : Byte} {a c : Nat} {cells : List Host.Cell} (h : c ≠ a) :
    getCell base' c (putCell base a v cells) = getCell base' c cells := by
  induction cells with
  | nil => by_cases hv : v = base <;> simp [putCell, getCell, hv, h]
  | cons d rest ih =>
    obtain ⟨b, u⟩ := d
    simp only [putCell]
    split_ifs with hlt hv heq hv
    · rfl
    · simp [getCell, h]
    · subst heq; simp [getCell, h]
    · subst heq; simp [getCell, h]
    · simp only [getCell]; rw [ih]

/-! ## One byte -/

@[simp] theorem Memory.put_font (m : Memory) (a : Nat) (v : Byte) : (m.put a v).font = m.font := by
  unfold Memory.put; split <;> rfl

/-- Read after write, at the address written (R42, R49). -/
theorem Memory.get_put_same {m : Memory} (hm : m.wf) {a : Nat} (ha : a < 4096) (v : Byte) :
    (m.put a v).get a = v := by
  simp only [Memory.put, if_pos ha, Memory.get]
  exact getCell_putCell_same hm.1

/-- A write leaves every other address alone. -/
theorem Memory.get_put_other (m : Memory) {a c : Nat} (v : Byte) (h : c ≠ a) : (m.put a v).get c = m.get c := by
  unfold Memory.put
  split
  · exact getCell_putCell_other h
  · rfl

/-- A write keeps the canonical form. -/
theorem Memory.wf_put {m : Memory} (hm : m.wf) (a : Nat) (v : Byte) : (m.put a v).wf := by
  unfold Memory.put
  split
  · refine ⟨rising_putCell hm.1, fun c hc => ?_⟩
    rcases mem_putCell hc with hc | ⟨rfl, hv⟩
    · exact hm.2 c hc
    · exact ⟨‹_›, hv⟩
  · exact hm

/-- Memories in canonical form, of one FONT, that read alike are equal. -/
theorem Memory.ext_get {m m' : Memory} (hm : m.wf) (hm' : m'.wf) (hf : m.font = m'.font)
    (h : ∀ a, m.get a = m'.get a) : m = m' := by
  obtain ⟨font, cells⟩ := m
  obtain ⟨font', cells'⟩ := m'
  obtain rfl : font = font' := hf
  suffices hmem : ∀ {l l' : List Host.Cell}, Rising l → Rising l' →
      (∀ c ∈ l, c.2 ≠ Memory.unlisted font c.1) →
      (∀ a, getCell (Memory.unlisted font a) a l = getCell (Memory.unlisted font a) a l') → l ⊆ l' by
    have hs : cells ⊆ cells' := hmem hm.1 hm'.1 (fun c hc => (hm.2 c hc).2) h
    have hs' : cells' ⊆ cells := hmem hm'.1 hm.1 (fun c hc => (hm'.2 c hc).2) fun a => (h a).symm
    have nodup : ∀ {l : List Host.Cell}, Rising l → l.Nodup := fun hl =>
      hl.imp fun hlt heq => by simp [heq] at hlt
    have hp : cells.Perm cells' :=
      (List.perm_ext_iff_of_nodup (nodup hm.1) (nodup hm'.1)).2 fun c => ⟨fun hc => hs hc, fun hc => hs' hc⟩
    congr 1
    exact hp.eq_of_pairwise (fun a b _ _ hab hba => absurd hab (by omega)) hm.1 hm'.1
  intro l l' hl hl' hne heq c hc
  by_contra hnot
  have h1 := getCell_of_mem (base := Memory.unlisted font c.1) hl hc
  by_cases hex : ∃ d ∈ l', d.1 = c.1
  · obtain ⟨d, hd, hdc⟩ := hex
    have h2 := getCell_of_mem (base := Memory.unlisted font d.1) hl' hd
    rw [hdc, ← heq c.1, h1] at h2
    exact hnot (by rw [show c = d from Prod.ext hdc.symm h2]; exact hd)
  · have h2 := getCell_absent (base := Memory.unlisted font c.1) (a := c.1) (cells := l')
      fun d hd he => hex ⟨d, hd, he.symm⟩
    rw [← heq c.1, h1] at h2
    exact hne c hc h2

/-! ## A run of bytes -/

@[simp] theorem Memory.putBytes_font (m : Memory) (base : Nat) (bs : List Byte) :
    (m.putBytes base bs).font = m.font := by
  induction bs generalizing m base with
  | nil => rfl
  | cons b rest ih => simp [Memory.putBytes, ih]

theorem Memory.wf_putBytes {m : Memory} (hm : m.wf) (base : Nat) (bs : List Byte) : (m.putBytes base bs).wf := by
  induction bs generalizing m base with
  | nil => exact hm
  | cons b rest ih => exact ih (Memory.wf_put hm base b) (base + 1)

/-- Bytes outside the run read as before. -/
theorem Memory.get_putBytes_outside (m : Memory) {base a : Nat} (bs : List Byte)
    (h : a < base ∨ base + bs.length ≤ a) : (m.putBytes base bs).get a = m.get a := by
  induction bs generalizing m base with
  | nil => rfl
  | cons b rest ih =>
    simp only [List.length_cons] at h
    rw [Memory.putBytes, ih _ (by omega), Memory.get_put_other _ _ (by omega)]

/-- Byte k of the run is at `base + k`. -/
theorem Memory.get_putBytes_inside {m : Memory} (hm : m.wf) {base k : Nat} {bs : List Byte}
    (hend : base + bs.length ≤ 4096) (hk : k < bs.length) : (m.putBytes base bs).get (base + k) = bs[k] := by
  induction bs generalizing m base k with
  | nil => simp at hk
  | cons b rest ih =>
    simp only [List.length_cons] at hend hk
    rw [Memory.putBytes]
    cases k with
    | zero =>
      rw [Memory.get_putBytes_outside _ _ (by omega), Nat.add_zero, Memory.get_put_same hm (by omega)]
      rfl
    | succ k =>
      rw [show base + (k + 1) = base + 1 + k by omega, ih (Memory.wf_put hm _ _) (by omega) (by omega)]
      rfl

end Sys2Proof.Machine
end

