-- ==== Sys2Proof/Laws/Host.lean ====
section
/-! SUPPORT. What a ROM load does, said once for each of its three cases (R131). -/

namespace Sys2Proof.Machine

theorem loadRom_of_fits {s : State} {bytes : List Byte} (hp : s.phase = .boot) (hl : bytes.length ≤ 3584) :
    loadRom bytes s = ({ s with mem := s.mem.putBytes 512 bytes }, .loadSuccess) := by
  have h : ¬ Config.romMax < bytes.length := Nat.not_lt.2 hl
  unfold loadRom
  rw [if_neg (by simp [hp]), if_neg h]

/-- The image a failed load leaves is some list of bytes; nothing is said of them. -/
theorem loadRom_of_tooLong {s : State} {bytes : List Byte} (hp : s.phase = .boot) (hl : 3584 < bytes.length) :
    ∃ image, loadRom bytes s =
      ({ s with mem := s.mem.putBytes 512 image, phase := .poisoned, fresh := s.fresh + 1 }, .loadFailure) := by
  have h : Config.romMax < bytes.length := hl
  unfold loadRom
  rw [if_neg (by simp [hp]), if_pos h]
  exact ⟨_, rfl⟩

theorem loadRom_of_notBoot {s : State} (bytes : List Byte) (hp : s.phase ≠ .boot) :
    loadRom bytes s = (s, .refused) := if_pos hp

end Sys2Proof.Machine
end

