-- ==== Sys2Proof/Laws/State.lean ====
section
/-! SUPPORT. One lemma per field for each named update of the state: a later proof cites these by simp and never
unfolds an update. -/

namespace Sys2Proof.Machine

section
variable (s : State)

/-! ### State.setReg -/

@[simp] theorem State.setReg_v (x : RegIx) (b : Byte) : (s.setReg x b).v = s.v.set x.toNat b x.isLt := rfl
@[simp] theorem State.setReg_i (x : RegIx) (b : Byte) : (s.setReg x b).i = s.i := rfl
@[simp] theorem State.setReg_pc (x : RegIx) (b : Byte) : (s.setReg x b).pc = s.pc := rfl
@[simp] theorem State.setReg_sp (x : RegIx) (b : Byte) : (s.setReg x b).sp = s.sp := rfl
@[simp] theorem State.setReg_stack (x : RegIx) (b : Byte) : (s.setReg x b).stack = s.stack := rfl
@[simp] theorem State.setReg_dt (x : RegIx) (b : Byte) : (s.setReg x b).dt = s.dt := rfl
@[simp] theorem State.setReg_st (x : RegIx) (b : Byte) : (s.setReg x b).st = s.st := rfl
@[simp] theorem State.setReg_keys (x : RegIx) (b : Byte) : (s.setReg x b).keys = s.keys := rfl
@[simp] theorem State.setReg_fb (x : RegIx) (b : Byte) : (s.setReg x b).fb = s.fb := rfl
@[simp] theorem State.setReg_drawFlag (x : RegIx) (b : Byte) : (s.setReg x b).drawFlag = s.drawFlag := rfl
@[simp] theorem State.setReg_mem (x : RegIx) (b : Byte) : (s.setReg x b).mem = s.mem := rfl
@[simp] theorem State.setReg_faultRecord (x : RegIx) (b : Byte) : (s.setReg x b).faultRecord = s.faultRecord := rfl
@[simp] theorem State.setReg_phase (x : RegIx) (b : Byte) : (s.setReg x b).phase = s.phase := rfl
@[simp] theorem State.setReg_traceEnable (x : RegIx) (b : Byte) : (s.setReg x b).traceEnable = s.traceEnable := rfl
@[simp] theorem State.setReg_soundEnable (x : RegIx) (b : Byte) : (s.setReg x b).soundEnable = s.soundEnable := rfl
@[simp] theorem State.setReg_rndInput (x : RegIx) (b : Byte) : (s.setReg x b).rndInput = s.rndInput := rfl
@[simp] theorem State.setReg_soundActive (x : RegIx) (b : Byte) : (s.setReg x b).soundActive = s.soundActive := rfl
@[simp] theorem State.setReg_events (x : RegIx) (b : Byte) : (s.setReg x b).events = s.events := rfl
@[simp] theorem State.setReg_fresh (x : RegIx) (b : Byte) : (s.setReg x b).fresh = s.fresh := rfl
@[simp] theorem State.setReg_byteAt (x : RegIx) (b : Byte) (a : Nat) : (s.setReg x b).byteAt a = s.byteAt a := rfl
@[simp] theorem State.setReg_pixel (x : RegIx) (b : Byte) (k : Nat) : (s.setReg x b).pixel k = s.pixel k := rfl
@[simp] theorem State.setReg_halted (x : RegIx) (b : Byte) : (s.setReg x b).halted = s.halted := rfl

/-! ### State.setI -/

@[simp] theorem State.setI_v (w : Word) : (s.setI w).v = s.v := rfl
@[simp] theorem State.setI_i (w : Word) : (s.setI w).i = w := rfl
@[simp] theorem State.setI_pc (w : Word) : (s.setI w).pc = s.pc := rfl
@[simp] theorem State.setI_sp (w : Word) : (s.setI w).sp = s.sp := rfl
@[simp] theorem State.setI_stack (w : Word) : (s.setI w).stack = s.stack := rfl
@[simp] theorem State.setI_dt (w : Word) : (s.setI w).dt = s.dt := rfl
@[simp] theorem State.setI_st (w : Word) : (s.setI w).st = s.st := rfl
@[simp] theorem State.setI_keys (w : Word) : (s.setI w).keys = s.keys := rfl
@[simp] theorem State.setI_fb (w : Word) : (s.setI w).fb = s.fb := rfl
@[simp] theorem State.setI_drawFlag (w : Word) : (s.setI w).drawFlag = s.drawFlag := rfl
@[simp] theorem State.setI_mem (w : Word) : (s.setI w).mem = s.mem := rfl
@[simp] theorem State.setI_faultRecord (w : Word) : (s.setI w).faultRecord = s.faultRecord := rfl
@[simp] theorem State.setI_phase (w : Word) : (s.setI w).phase = s.phase := rfl
@[simp] theorem State.setI_traceEnable (w : Word) : (s.setI w).traceEnable = s.traceEnable := rfl
@[simp] theorem State.setI_soundEnable (w : Word) : (s.setI w).soundEnable = s.soundEnable := rfl
@[simp] theorem State.setI_rndInput (w : Word) : (s.setI w).rndInput = s.rndInput := rfl
@[simp] theorem State.setI_soundActive (w : Word) : (s.setI w).soundActive = s.soundActive := rfl
@[simp] theorem State.setI_events (w : Word) : (s.setI w).events = s.events := rfl
@[simp] theorem State.setI_fresh (w : Word) : (s.setI w).fresh = s.fresh := rfl
@[simp] theorem State.setI_reg (w : Word) (r : RegIx) : (s.setI w).reg r = s.reg r := rfl
@[simp] theorem State.setI_byteAt (w : Word) (a : Nat) : (s.setI w).byteAt a = s.byteAt a := rfl
@[simp] theorem State.setI_pixel (w : Word) (k : Nat) : (s.setI w).pixel k = s.pixel k := rfl
@[simp] theorem State.setI_halted (w : Word) : (s.setI w).halted = s.halted := rfl

/-! ### State.setPc -/

@[simp] theorem State.setPc_v (w : Word) : (s.setPc w).v = s.v := rfl
@[simp] theorem State.setPc_i (w : Word) : (s.setPc w).i = s.i := rfl
@[simp] theorem State.setPc_pc (w : Word) : (s.setPc w).pc = w := rfl
@[simp] theorem State.setPc_sp (w : Word) : (s.setPc w).sp = s.sp := rfl
@[simp] theorem State.setPc_stack (w : Word) : (s.setPc w).stack = s.stack := rfl
@[simp] theorem State.setPc_dt (w : Word) : (s.setPc w).dt = s.dt := rfl
@[simp] theorem State.setPc_st (w : Word) : (s.setPc w).st = s.st := rfl
@[simp] theorem State.setPc_keys (w : Word) : (s.setPc w).keys = s.keys := rfl
@[simp] theorem State.setPc_fb (w : Word) : (s.setPc w).fb = s.fb := rfl
@[simp] theorem State.setPc_drawFlag (w : Word) : (s.setPc w).drawFlag = s.drawFlag := rfl
@[simp] theorem State.setPc_mem (w : Word) : (s.setPc w).mem = s.mem := rfl
@[simp] theorem State.setPc_faultRecord (w : Word) : (s.setPc w).faultRecord = s.faultRecord := rfl
@[simp] theorem State.setPc_phase (w : Word) : (s.setPc w).phase = s.phase := rfl
@[simp] theorem State.setPc_traceEnable (w : Word) : (s.setPc w).traceEnable = s.traceEnable := rfl
@[simp] theorem State.setPc_soundEnable (w : Word) : (s.setPc w).soundEnable = s.soundEnable := rfl
@[simp] theorem State.setPc_rndInput (w : Word) : (s.setPc w).rndInput = s.rndInput := rfl
@[simp] theorem State.setPc_soundActive (w : Word) : (s.setPc w).soundActive = s.soundActive := rfl
@[simp] theorem State.setPc_events (w : Word) : (s.setPc w).events = s.events := rfl
@[simp] theorem State.setPc_fresh (w : Word) : (s.setPc w).fresh = s.fresh := rfl
@[simp] theorem State.setPc_reg (w : Word) (r : RegIx) : (s.setPc w).reg r = s.reg r := rfl
@[simp] theorem State.setPc_byteAt (w : Word) (a : Nat) : (s.setPc w).byteAt a = s.byteAt a := rfl
@[simp] theorem State.setPc_pixel (w : Word) (k : Nat) : (s.setPc w).pixel k = s.pixel k := rfl
@[simp] theorem State.setPc_halted (w : Word) : (s.setPc w).halted = s.halted := rfl

/-! ### State.advance -/

@[simp] theorem State.advance_v : s.advance.v = s.v := rfl
@[simp] theorem State.advance_i : s.advance.i = s.i := rfl
@[simp] theorem State.advance_pc : s.advance.pc = s.pc + 2 := rfl
@[simp] theorem State.advance_sp : s.advance.sp = s.sp := rfl
@[simp] theorem State.advance_stack : s.advance.stack = s.stack := rfl
@[simp] theorem State.advance_dt : s.advance.dt = s.dt := rfl
@[simp] theorem State.advance_st : s.advance.st = s.st := rfl
@[simp] theorem State.advance_keys : s.advance.keys = s.keys := rfl
@[simp] theorem State.advance_fb : s.advance.fb = s.fb := rfl
@[simp] theorem State.advance_drawFlag : s.advance.drawFlag = s.drawFlag := rfl
@[simp] theorem State.advance_mem : s.advance.mem = s.mem := rfl
@[simp] theorem State.advance_faultRecord : s.advance.faultRecord = s.faultRecord := rfl
@[simp] theorem State.advance_phase : s.advance.phase = s.phase := rfl
@[simp] theorem State.advance_traceEnable : s.advance.traceEnable = s.traceEnable := rfl
@[simp] theorem State.advance_soundEnable : s.advance.soundEnable = s.soundEnable := rfl
@[simp] theorem State.advance_rndInput : s.advance.rndInput = s.rndInput := rfl
@[simp] theorem State.advance_soundActive : s.advance.soundActive = s.soundActive := rfl
@[simp] theorem State.advance_events : s.advance.events = s.events := rfl
@[simp] theorem State.advance_fresh : s.advance.fresh = s.fresh := rfl
@[simp] theorem State.advance_reg (r : RegIx) : s.advance.reg r = s.reg r := rfl
@[simp] theorem State.advance_byteAt (a : Nat) : s.advance.byteAt a = s.byteAt a := rfl
@[simp] theorem State.advance_pixel (k : Nat) : s.advance.pixel k = s.pixel k := rfl
@[simp] theorem State.advance_halted : s.advance.halted = s.halted := rfl

/-! ### State.skipWhen -/

@[simp] theorem State.skipWhen_v (c : Bool) : (s.skipWhen c).v = s.v := rfl
@[simp] theorem State.skipWhen_i (c : Bool) : (s.skipWhen c).i = s.i := rfl
@[simp] theorem State.skipWhen_pc (c : Bool) : (s.skipWhen c).pc = if c then s.pc + 2 + 2 else s.pc + 2 := rfl
@[simp] theorem State.skipWhen_sp (c : Bool) : (s.skipWhen c).sp = s.sp := rfl
@[simp] theorem State.skipWhen_stack (c : Bool) : (s.skipWhen c).stack = s.stack := rfl
@[simp] theorem State.skipWhen_dt (c : Bool) : (s.skipWhen c).dt = s.dt := rfl
@[simp] theorem State.skipWhen_st (c : Bool) : (s.skipWhen c).st = s.st := rfl
@[simp] theorem State.skipWhen_keys (c : Bool) : (s.skipWhen c).keys = s.keys := rfl
@[simp] theorem State.skipWhen_fb (c : Bool) : (s.skipWhen c).fb = s.fb := rfl
@[simp] theorem State.skipWhen_drawFlag (c : Bool) : (s.skipWhen c).drawFlag = s.drawFlag := rfl
@[simp] theorem State.skipWhen_mem (c : Bool) : (s.skipWhen c).mem = s.mem := rfl
@[simp] theorem State.skipWhen_faultRecord (c : Bool) : (s.skipWhen c).faultRecord = s.faultRecord := rfl
@[simp] theorem State.skipWhen_phase (c : Bool) : (s.skipWhen c).phase = s.phase := rfl
@[simp] theorem State.skipWhen_traceEnable (c : Bool) : (s.skipWhen c).traceEnable = s.traceEnable := rfl
@[simp] theorem State.skipWhen_soundEnable (c : Bool) : (s.skipWhen c).soundEnable = s.soundEnable := rfl
@[simp] theorem State.skipWhen_rndInput (c : Bool) : (s.skipWhen c).rndInput = s.rndInput := rfl
@[simp] theorem State.skipWhen_soundActive (c : Bool) : (s.skipWhen c).soundActive = s.soundActive := rfl
@[simp] theorem State.skipWhen_events (c : Bool) : (s.skipWhen c).events = s.events := rfl
@[simp] theorem State.skipWhen_fresh (c : Bool) : (s.skipWhen c).fresh = s.fresh := rfl
@[simp] theorem State.skipWhen_reg (c : Bool) (r : RegIx) : (s.skipWhen c).reg r = s.reg r := rfl
@[simp] theorem State.skipWhen_byteAt (c : Bool) (a : Nat) : (s.skipWhen c).byteAt a = s.byteAt a := rfl
@[simp] theorem State.skipWhen_pixel (c : Bool) (k : Nat) : (s.skipWhen c).pixel k = s.pixel k := rfl
@[simp] theorem State.skipWhen_halted (c : Bool) : (s.skipWhen c).halted = s.halted := rfl

/-! ### State.setDt -/

@[simp] theorem State.setDt_v (b : Byte) : (s.setDt b).v = s.v := rfl
@[simp] theorem State.setDt_i (b : Byte) : (s.setDt b).i = s.i := rfl
@[simp] theorem State.setDt_pc (b : Byte) : (s.setDt b).pc = s.pc := rfl
@[simp] theorem State.setDt_sp (b : Byte) : (s.setDt b).sp = s.sp := rfl
@[simp] theorem State.setDt_stack (b : Byte) : (s.setDt b).stack = s.stack := rfl
@[simp] theorem State.setDt_dt (b : Byte) : (s.setDt b).dt = b := rfl
@[simp] theorem State.setDt_st (b : Byte) : (s.setDt b).st = s.st := rfl
@[simp] theorem State.setDt_keys (b : Byte) : (s.setDt b).keys = s.keys := rfl
@[simp] theorem State.setDt_fb (b : Byte) : (s.setDt b).fb = s.fb := rfl
@[simp] theorem State.setDt_drawFlag (b : Byte) : (s.setDt b).drawFlag = s.drawFlag := rfl
@[simp] theorem State.setDt_mem (b : Byte) : (s.setDt b).mem = s.mem := rfl
@[simp] theorem State.setDt_faultRecord (b : Byte) : (s.setDt b).faultRecord = s.faultRecord := rfl
@[simp] theorem State.setDt_phase (b : Byte) : (s.setDt b).phase = s.phase := rfl
@[simp] theorem State.setDt_traceEnable (b : Byte) : (s.setDt b).traceEnable = s.traceEnable := rfl
@[simp] theorem State.setDt_soundEnable (b : Byte) : (s.setDt b).soundEnable = s.soundEnable := rfl
@[simp] theorem State.setDt_rndInput (b : Byte) : (s.setDt b).rndInput = s.rndInput := rfl
@[simp] theorem State.setDt_soundActive (b : Byte) : (s.setDt b).soundActive = s.soundActive := rfl
@[simp] theorem State.setDt_events (b : Byte) : (s.setDt b).events = s.events := rfl
@[simp] theorem State.setDt_fresh (b : Byte) : (s.setDt b).fresh = s.fresh := rfl
@[simp] theorem State.setDt_reg (b : Byte) (r : RegIx) : (s.setDt b).reg r = s.reg r := rfl
@[simp] theorem State.setDt_byteAt (b : Byte) (a : Nat) : (s.setDt b).byteAt a = s.byteAt a := rfl
@[simp] theorem State.setDt_pixel (b : Byte) (k : Nat) : (s.setDt b).pixel k = s.pixel k := rfl
@[simp] theorem State.setDt_halted (b : Byte) : (s.setDt b).halted = s.halted := rfl

/-! ### State.setSt -/

@[simp] theorem State.setSt_v (b : Byte) : (s.setSt b).v = s.v := rfl
@[simp] theorem State.setSt_i (b : Byte) : (s.setSt b).i = s.i := rfl
@[simp] theorem State.setSt_pc (b : Byte) : (s.setSt b).pc = s.pc := rfl
@[simp] theorem State.setSt_sp (b : Byte) : (s.setSt b).sp = s.sp := rfl
@[simp] theorem State.setSt_stack (b : Byte) : (s.setSt b).stack = s.stack := rfl
@[simp] theorem State.setSt_dt (b : Byte) : (s.setSt b).dt = s.dt := rfl
@[simp] theorem State.setSt_st (b : Byte) : (s.setSt b).st = b := rfl
@[simp] theorem State.setSt_keys (b : Byte) : (s.setSt b).keys = s.keys := rfl
@[simp] theorem State.setSt_fb (b : Byte) : (s.setSt b).fb = s.fb := rfl
@[simp] theorem State.setSt_drawFlag (b : Byte) : (s.setSt b).drawFlag = s.drawFlag := rfl
@[simp] theorem State.setSt_mem (b : Byte) : (s.setSt b).mem = s.mem := rfl
@[simp] theorem State.setSt_faultRecord (b : Byte) : (s.setSt b).faultRecord = s.faultRecord := rfl
@[simp] theorem State.setSt_phase (b : Byte) : (s.setSt b).phase = s.phase := rfl
@[simp] theorem State.setSt_traceEnable (b : Byte) : (s.setSt b).traceEnable = s.traceEnable := rfl
@[simp] theorem State.setSt_soundEnable (b : Byte) : (s.setSt b).soundEnable = s.soundEnable := rfl
@[simp] theorem State.setSt_rndInput (b : Byte) : (s.setSt b).rndInput = s.rndInput := rfl
@[simp] theorem State.setSt_soundActive (b : Byte) : (s.setSt b).soundActive = s.soundActive := rfl
@[simp] theorem State.setSt_events (b : Byte) : (s.setSt b).events = s.events := rfl
@[simp] theorem State.setSt_fresh (b : Byte) : (s.setSt b).fresh = s.fresh := rfl
@[simp] theorem State.setSt_reg (b : Byte) (r : RegIx) : (s.setSt b).reg r = s.reg r := rfl
@[simp] theorem State.setSt_byteAt (b : Byte) (a : Nat) : (s.setSt b).byteAt a = s.byteAt a := rfl
@[simp] theorem State.setSt_pixel (b : Byte) (k : Nat) : (s.setSt b).pixel k = s.pixel k := rfl
@[simp] theorem State.setSt_halted (b : Byte) : (s.setSt b).halted = s.halted := rfl

/-! ### State.setMem -/

@[simp] theorem State.setMem_v (m : Memory) : (s.setMem m).v = s.v := rfl
@[simp] theorem State.setMem_i (m : Memory) : (s.setMem m).i = s.i := rfl
@[simp] theorem State.setMem_pc (m : Memory) : (s.setMem m).pc = s.pc := rfl
@[simp] theorem State.setMem_sp (m : Memory) : (s.setMem m).sp = s.sp := rfl
@[simp] theorem State.setMem_stack (m : Memory) : (s.setMem m).stack = s.stack := rfl
@[simp] theorem State.setMem_dt (m : Memory) : (s.setMem m).dt = s.dt := rfl
@[simp] theorem State.setMem_st (m : Memory) : (s.setMem m).st = s.st := rfl
@[simp] theorem State.setMem_keys (m : Memory) : (s.setMem m).keys = s.keys := rfl
@[simp] theorem State.setMem_fb (m : Memory) : (s.setMem m).fb = s.fb := rfl
@[simp] theorem State.setMem_drawFlag (m : Memory) : (s.setMem m).drawFlag = s.drawFlag := rfl
@[simp] theorem State.setMem_mem (m : Memory) : (s.setMem m).mem = m := rfl
@[simp] theorem State.setMem_faultRecord (m : Memory) : (s.setMem m).faultRecord = s.faultRecord := rfl
@[simp] theorem State.setMem_phase (m : Memory) : (s.setMem m).phase = s.phase := rfl
@[simp] theorem State.setMem_traceEnable (m : Memory) : (s.setMem m).traceEnable = s.traceEnable := rfl
@[simp] theorem State.setMem_soundEnable (m : Memory) : (s.setMem m).soundEnable = s.soundEnable := rfl
@[simp] theorem State.setMem_rndInput (m : Memory) : (s.setMem m).rndInput = s.rndInput := rfl
@[simp] theorem State.setMem_soundActive (m : Memory) : (s.setMem m).soundActive = s.soundActive := rfl
@[simp] theorem State.setMem_events (m : Memory) : (s.setMem m).events = s.events := rfl
@[simp] theorem State.setMem_fresh (m : Memory) : (s.setMem m).fresh = s.fresh := rfl
@[simp] theorem State.setMem_reg (m : Memory) (r : RegIx) : (s.setMem m).reg r = s.reg r := rfl
@[simp] theorem State.setMem_pixel (m : Memory) (k : Nat) : (s.setMem m).pixel k = s.pixel k := rfl
@[simp] theorem State.setMem_halted (m : Memory) : (s.setMem m).halted = s.halted := rfl

/-! ### State.setDisplay -/

@[simp] theorem State.setDisplay_v (fb : Framebuffer) : (s.setDisplay fb).v = s.v := rfl
@[simp] theorem State.setDisplay_i (fb : Framebuffer) : (s.setDisplay fb).i = s.i := rfl
@[simp] theorem State.setDisplay_pc (fb : Framebuffer) : (s.setDisplay fb).pc = s.pc := rfl
@[simp] theorem State.setDisplay_sp (fb : Framebuffer) : (s.setDisplay fb).sp = s.sp := rfl
@[simp] theorem State.setDisplay_stack (fb : Framebuffer) : (s.setDisplay fb).stack = s.stack := rfl
@[simp] theorem State.setDisplay_dt (fb : Framebuffer) : (s.setDisplay fb).dt = s.dt := rfl
@[simp] theorem State.setDisplay_st (fb : Framebuffer) : (s.setDisplay fb).st = s.st := rfl
@[simp] theorem State.setDisplay_keys (fb : Framebuffer) : (s.setDisplay fb).keys = s.keys := rfl
@[simp] theorem State.setDisplay_fb (fb : Framebuffer) : (s.setDisplay fb).fb = fb := rfl
@[simp] theorem State.setDisplay_drawFlag (fb : Framebuffer) : (s.setDisplay fb).drawFlag = true := rfl
@[simp] theorem State.setDisplay_mem (fb : Framebuffer) : (s.setDisplay fb).mem = s.mem := rfl
@[simp] theorem State.setDisplay_faultRecord (fb : Framebuffer) : (s.setDisplay fb).faultRecord = s.faultRecord := rfl
@[simp] theorem State.setDisplay_phase (fb : Framebuffer) : (s.setDisplay fb).phase = s.phase := rfl
@[simp] theorem State.setDisplay_traceEnable (fb : Framebuffer) : (s.setDisplay fb).traceEnable = s.traceEnable := rfl
@[simp] theorem State.setDisplay_soundEnable (fb : Framebuffer) : (s.setDisplay fb).soundEnable = s.soundEnable := rfl
@[simp] theorem State.setDisplay_rndInput (fb : Framebuffer) : (s.setDisplay fb).rndInput = s.rndInput := rfl
@[simp] theorem State.setDisplay_soundActive (fb : Framebuffer) : (s.setDisplay fb).soundActive = s.soundActive := rfl
@[simp] theorem State.setDisplay_events (fb : Framebuffer) : (s.setDisplay fb).events = s.events := rfl
@[simp] theorem State.setDisplay_fresh (fb : Framebuffer) : (s.setDisplay fb).fresh = s.fresh := rfl
@[simp] theorem State.setDisplay_reg (fb : Framebuffer) (r : RegIx) : (s.setDisplay fb).reg r = s.reg r := rfl
@[simp] theorem State.setDisplay_byteAt (fb : Framebuffer) (a : Nat) : (s.setDisplay fb).byteAt a = s.byteAt a := rfl
@[simp] theorem State.setDisplay_halted (fb : Framebuffer) : (s.setDisplay fb).halted = s.halted := rfl

/-! ### State.push -/

@[simp] theorem State.push_v (w : Word) (h : s.sp.val < 16) : (s.push w h).v = s.v := rfl
@[simp] theorem State.push_i (w : Word) (h : s.sp.val < 16) : (s.push w h).i = s.i := rfl
@[simp] theorem State.push_pc (w : Word) (h : s.sp.val < 16) : (s.push w h).pc = s.pc := rfl
@[simp] theorem State.push_sp (w : Word) (h : s.sp.val < 16) : (s.push w h).sp = ⟨s.sp.val + 1, by omega⟩ := rfl
@[simp] theorem State.push_stack (w : Word) (h : s.sp.val < 16) : (s.push w h).stack = s.stack.set s.sp.val w h := rfl
@[simp] theorem State.push_dt (w : Word) (h : s.sp.val < 16) : (s.push w h).dt = s.dt := rfl
@[simp] theorem State.push_st (w : Word) (h : s.sp.val < 16) : (s.push w h).st = s.st := rfl
@[simp] theorem State.push_keys (w : Word) (h : s.sp.val < 16) : (s.push w h).keys = s.keys := rfl
@[simp] theorem State.push_fb (w : Word) (h : s.sp.val < 16) : (s.push w h).fb = s.fb := rfl
@[simp] theorem State.push_drawFlag (w : Word) (h : s.sp.val < 16) : (s.push w h).drawFlag = s.drawFlag := rfl
@[simp] theorem State.push_mem (w : Word) (h : s.sp.val < 16) : (s.push w h).mem = s.mem := rfl
@[simp] theorem State.push_faultRecord (w : Word) (h : s.sp.val < 16) : (s.push w h).faultRecord = s.faultRecord := rfl
@[simp] theorem State.push_phase (w : Word) (h : s.sp.val < 16) : (s.push w h).phase = s.phase := rfl
@[simp] theorem State.push_traceEnable (w : Word) (h : s.sp.val < 16) : (s.push w h).traceEnable = s.traceEnable := rfl
@[simp] theorem State.push_soundEnable (w : Word) (h : s.sp.val < 16) : (s.push w h).soundEnable = s.soundEnable := rfl
@[simp] theorem State.push_rndInput (w : Word) (h : s.sp.val < 16) : (s.push w h).rndInput = s.rndInput := rfl
@[simp] theorem State.push_soundActive (w : Word) (h : s.sp.val < 16) : (s.push w h).soundActive = s.soundActive := rfl
@[simp] theorem State.push_events (w : Word) (h : s.sp.val < 16) : (s.push w h).events = s.events := rfl
@[simp] theorem State.push_fresh (w : Word) (h : s.sp.val < 16) : (s.push w h).fresh = s.fresh := rfl
@[simp] theorem State.push_reg (w : Word) (h : s.sp.val < 16) (r : RegIx) : (s.push w h).reg r = s.reg r := rfl
@[simp] theorem State.push_byteAt (w : Word) (h : s.sp.val < 16) (a : Nat) : (s.push w h).byteAt a = s.byteAt a := rfl
@[simp] theorem State.push_pixel (w : Word) (h : s.sp.val < 16) (k : Nat) : (s.push w h).pixel k = s.pixel k := rfl
@[simp] theorem State.push_halted (w : Word) (h : s.sp.val < 16) : (s.push w h).halted = s.halted := rfl

/-! ### State.pop -/

@[simp] theorem State.pop_v : s.pop.v = s.v := rfl
@[simp] theorem State.pop_i : s.pop.i = s.i := rfl
@[simp] theorem State.pop_pc : s.pop.pc = s.pc := rfl
@[simp] theorem State.pop_sp : s.pop.sp = ⟨s.sp.val - 1, by omega⟩ := rfl
@[simp] theorem State.pop_stack : s.pop.stack = s.stack := rfl
@[simp] theorem State.pop_dt : s.pop.dt = s.dt := rfl
@[simp] theorem State.pop_st : s.pop.st = s.st := rfl
@[simp] theorem State.pop_keys : s.pop.keys = s.keys := rfl
@[simp] theorem State.pop_fb : s.pop.fb = s.fb := rfl
@[simp] theorem State.pop_drawFlag : s.pop.drawFlag = s.drawFlag := rfl
@[simp] theorem State.pop_mem : s.pop.mem = s.mem := rfl
@[simp] theorem State.pop_faultRecord : s.pop.faultRecord = s.faultRecord := rfl
@[simp] theorem State.pop_phase : s.pop.phase = s.phase := rfl
@[simp] theorem State.pop_traceEnable : s.pop.traceEnable = s.traceEnable := rfl
@[simp] theorem State.pop_soundEnable : s.pop.soundEnable = s.soundEnable := rfl
@[simp] theorem State.pop_rndInput : s.pop.rndInput = s.rndInput := rfl
@[simp] theorem State.pop_soundActive : s.pop.soundActive = s.soundActive := rfl
@[simp] theorem State.pop_events : s.pop.events = s.events := rfl
@[simp] theorem State.pop_fresh : s.pop.fresh = s.fresh := rfl
@[simp] theorem State.pop_reg (r : RegIx) : s.pop.reg r = s.reg r := rfl
@[simp] theorem State.pop_byteAt (a : Nat) : s.pop.byteAt a = s.byteAt a := rfl
@[simp] theorem State.pop_pixel (k : Nat) : s.pop.pixel k = s.pixel k := rfl
@[simp] theorem State.pop_halted : s.pop.halted = s.halted := rfl

/-! ### State.drawFresh -/

@[simp] theorem State.drawFresh_v : s.drawFresh.v = s.v := rfl
@[simp] theorem State.drawFresh_i : s.drawFresh.i = s.i := rfl
@[simp] theorem State.drawFresh_pc : s.drawFresh.pc = s.pc := rfl
@[simp] theorem State.drawFresh_sp : s.drawFresh.sp = s.sp := rfl
@[simp] theorem State.drawFresh_stack : s.drawFresh.stack = s.stack := rfl
@[simp] theorem State.drawFresh_dt : s.drawFresh.dt = s.dt := rfl
@[simp] theorem State.drawFresh_st : s.drawFresh.st = s.st := rfl
@[simp] theorem State.drawFresh_keys : s.drawFresh.keys = s.keys := rfl
@[simp] theorem State.drawFresh_fb : s.drawFresh.fb = s.fb := rfl
@[simp] theorem State.drawFresh_drawFlag : s.drawFresh.drawFlag = s.drawFlag := rfl
@[simp] theorem State.drawFresh_mem : s.drawFresh.mem = s.mem := rfl
@[simp] theorem State.drawFresh_faultRecord : s.drawFresh.faultRecord = s.faultRecord := rfl
@[simp] theorem State.drawFresh_phase : s.drawFresh.phase = s.phase := rfl
@[simp] theorem State.drawFresh_traceEnable : s.drawFresh.traceEnable = s.traceEnable := rfl
@[simp] theorem State.drawFresh_soundEnable : s.drawFresh.soundEnable = s.soundEnable := rfl
@[simp] theorem State.drawFresh_rndInput : s.drawFresh.rndInput = s.rndInput := rfl
@[simp] theorem State.drawFresh_soundActive : s.drawFresh.soundActive = s.soundActive := rfl
@[simp] theorem State.drawFresh_events : s.drawFresh.events = s.events := rfl
@[simp] theorem State.drawFresh_fresh : s.drawFresh.fresh = s.fresh + 1 := rfl
@[simp] theorem State.drawFresh_reg (r : RegIx) : s.drawFresh.reg r = s.reg r := rfl
@[simp] theorem State.drawFresh_byteAt (a : Nat) : s.drawFresh.byteAt a = s.byteAt a := rfl
@[simp] theorem State.drawFresh_pixel (k : Nat) : s.drawFresh.pixel k = s.pixel k := rfl
@[simp] theorem State.drawFresh_halted : s.drawFresh.halted = s.halted := rfl

/-! ### State.emit -/

@[simp] theorem State.emit_v (e : Event) : (s.emit e).v = s.v := rfl
@[simp] theorem State.emit_i (e : Event) : (s.emit e).i = s.i := rfl
@[simp] theorem State.emit_pc (e : Event) : (s.emit e).pc = s.pc := rfl
@[simp] theorem State.emit_sp (e : Event) : (s.emit e).sp = s.sp := rfl
@[simp] theorem State.emit_stack (e : Event) : (s.emit e).stack = s.stack := rfl
@[simp] theorem State.emit_dt (e : Event) : (s.emit e).dt = s.dt := rfl
@[simp] theorem State.emit_st (e : Event) : (s.emit e).st = s.st := rfl
@[simp] theorem State.emit_keys (e : Event) : (s.emit e).keys = s.keys := rfl
@[simp] theorem State.emit_fb (e : Event) : (s.emit e).fb = s.fb := rfl
@[simp] theorem State.emit_drawFlag (e : Event) : (s.emit e).drawFlag = s.drawFlag := rfl
@[simp] theorem State.emit_mem (e : Event) : (s.emit e).mem = s.mem := rfl
@[simp] theorem State.emit_faultRecord (e : Event) : (s.emit e).faultRecord = s.faultRecord := rfl
@[simp] theorem State.emit_phase (e : Event) : (s.emit e).phase = s.phase := rfl
@[simp] theorem State.emit_traceEnable (e : Event) : (s.emit e).traceEnable = s.traceEnable := rfl
@[simp] theorem State.emit_soundEnable (e : Event) : (s.emit e).soundEnable = s.soundEnable := rfl
@[simp] theorem State.emit_rndInput (e : Event) : (s.emit e).rndInput = s.rndInput := rfl
@[simp] theorem State.emit_soundActive (e : Event) : (s.emit e).soundActive = s.soundActive := rfl
@[simp] theorem State.emit_events (e : Event) : (s.emit e).events = s.events ++ [e] := rfl
@[simp] theorem State.emit_fresh (e : Event) : (s.emit e).fresh = s.fresh := rfl
@[simp] theorem State.emit_reg (e : Event) (r : RegIx) : (s.emit e).reg r = s.reg r := rfl
@[simp] theorem State.emit_byteAt (e : Event) (a : Nat) : (s.emit e).byteAt a = s.byteAt a := rfl
@[simp] theorem State.emit_pixel (e : Event) (k : Nat) : (s.emit e).pixel k = s.pixel k := rfl
@[simp] theorem State.emit_halted (e : Event) : (s.emit e).halted = s.halted := rfl

/-! ### State.bumpI -/

@[simp] theorem State.bumpI_v (x : RegIx) : (s.bumpI x).v = s.v := rfl
@[simp] theorem State.bumpI_i (x : RegIx) : (s.bumpI x).i = s.i + BitVec.ofNat 16 (x.toNat + 1) := rfl
@[simp] theorem State.bumpI_pc (x : RegIx) : (s.bumpI x).pc = s.pc := rfl
@[simp] theorem State.bumpI_sp (x : RegIx) : (s.bumpI x).sp = s.sp := rfl
@[simp] theorem State.bumpI_stack (x : RegIx) : (s.bumpI x).stack = s.stack := rfl
@[simp] theorem State.bumpI_dt (x : RegIx) : (s.bumpI x).dt = s.dt := rfl
@[simp] theorem State.bumpI_st (x : RegIx) : (s.bumpI x).st = s.st := rfl
@[simp] theorem State.bumpI_keys (x : RegIx) : (s.bumpI x).keys = s.keys := rfl
@[simp] theorem State.bumpI_fb (x : RegIx) : (s.bumpI x).fb = s.fb := rfl
@[simp] theorem State.bumpI_drawFlag (x : RegIx) : (s.bumpI x).drawFlag = s.drawFlag := rfl
@[simp] theorem State.bumpI_mem (x : RegIx) : (s.bumpI x).mem = s.mem := rfl
@[simp] theorem State.bumpI_faultRecord (x : RegIx) : (s.bumpI x).faultRecord = s.faultRecord := rfl
@[simp] theorem State.bumpI_phase (x : RegIx) : (s.bumpI x).phase = s.phase := rfl
@[simp] theorem State.bumpI_traceEnable (x : RegIx) : (s.bumpI x).traceEnable = s.traceEnable := rfl
@[simp] theorem State.bumpI_soundEnable (x : RegIx) : (s.bumpI x).soundEnable = s.soundEnable := rfl
@[simp] theorem State.bumpI_rndInput (x : RegIx) : (s.bumpI x).rndInput = s.rndInput := rfl
@[simp] theorem State.bumpI_soundActive (x : RegIx) : (s.bumpI x).soundActive = s.soundActive := rfl
@[simp] theorem State.bumpI_events (x : RegIx) : (s.bumpI x).events = s.events := rfl
@[simp] theorem State.bumpI_fresh (x : RegIx) : (s.bumpI x).fresh = s.fresh := rfl
@[simp] theorem State.bumpI_reg (x : RegIx) (r : RegIx) : (s.bumpI x).reg r = s.reg r := rfl
@[simp] theorem State.bumpI_byteAt (x : RegIx) (a : Nat) : (s.bumpI x).byteAt a = s.byteAt a := rfl
@[simp] theorem State.bumpI_pixel (x : RegIx) (k : Nat) : (s.bumpI x).pixel k = s.pixel k := rfl
@[simp] theorem State.bumpI_halted (x : RegIx) : (s.bumpI x).halted = s.halted := rfl

/-! ### takeFault -/

@[simp] theorem takeFault_v (f : Fault) (o : Option Word) (n : Option Nat) : (takeFault f o n s).v = s.v := rfl
@[simp] theorem takeFault_i (f : Fault) (o : Option Word) (n : Option Nat) : (takeFault f o n s).i = s.i := rfl
@[simp] theorem takeFault_pc (f : Fault) (o : Option Word) (n : Option Nat) : (takeFault f o n s).pc = s.pc := rfl
@[simp] theorem takeFault_sp (f : Fault) (o : Option Word) (n : Option Nat) : (takeFault f o n s).sp = s.sp := rfl
@[simp] theorem takeFault_stack (f : Fault) (o : Option Word) (n : Option Nat) : (takeFault f o n s).stack = s.stack := rfl
@[simp] theorem takeFault_dt (f : Fault) (o : Option Word) (n : Option Nat) : (takeFault f o n s).dt = s.dt := rfl
@[simp] theorem takeFault_st (f : Fault) (o : Option Word) (n : Option Nat) : (takeFault f o n s).st = s.st := rfl
@[simp] theorem takeFault_keys (f : Fault) (o : Option Word) (n : Option Nat) : (takeFault f o n s).keys = s.keys := rfl
@[simp] theorem takeFault_fb (f : Fault) (o : Option Word) (n : Option Nat) : (takeFault f o n s).fb = s.fb := rfl
@[simp] theorem takeFault_drawFlag (f : Fault) (o : Option Word) (n : Option Nat) : (takeFault f o n s).drawFlag = s.drawFlag := rfl
@[simp] theorem takeFault_mem (f : Fault) (o : Option Word) (n : Option Nat) : (takeFault f o n s).mem = s.mem := rfl
@[simp] theorem takeFault_faultRecord (f : Fault) (o : Option Word) (n : Option Nat) : (takeFault f o n s).faultRecord = some ⟨f, s.pc, o, n⟩ := rfl
@[simp] theorem takeFault_phase (f : Fault) (o : Option Word) (n : Option Nat) : (takeFault f o n s).phase = s.phase := rfl
@[simp] theorem takeFault_traceEnable (f : Fault) (o : Option Word) (n : Option Nat) : (takeFault f o n s).traceEnable = s.traceEnable := rfl
@[simp] theorem takeFault_soundEnable (f : Fault) (o : Option Word) (n : Option Nat) : (takeFault f o n s).soundEnable = s.soundEnable := rfl
@[simp] theorem takeFault_rndInput (f : Fault) (o : Option Word) (n : Option Nat) : (takeFault f o n s).rndInput = s.rndInput := rfl
@[simp] theorem takeFault_soundActive (f : Fault) (o : Option Word) (n : Option Nat) : (takeFault f o n s).soundActive = false := rfl
@[simp] theorem takeFault_events (f : Fault) (o : Option Word) (n : Option Nat) : (takeFault f o n s).events = s.events ++ [.fault ⟨f, s.pc, o, n⟩] := rfl
@[simp] theorem takeFault_fresh (f : Fault) (o : Option Word) (n : Option Nat) : (takeFault f o n s).fresh = s.fresh := rfl
@[simp] theorem takeFault_reg (f : Fault) (o : Option Word) (n : Option Nat) (r : RegIx) : (takeFault f o n s).reg r = s.reg r := rfl
@[simp] theorem takeFault_byteAt (f : Fault) (o : Option Word) (n : Option Nat) (a : Nat) : (takeFault f o n s).byteAt a = s.byteAt a := rfl
@[simp] theorem takeFault_pixel (f : Fault) (o : Option Word) (n : Option Nat) (k : Nat) : (takeFault f o n s).pixel k = s.pixel k := rfl
@[simp] theorem takeFault_halted (f : Fault) (o : Option Word) (n : Option Nat) : (takeFault f o n s).halted = true := rfl

/-! ### fetchFault -/

@[simp] theorem fetchFault_v : (fetchFault s).v = s.v := rfl
@[simp] theorem fetchFault_i : (fetchFault s).i = s.i := rfl
@[simp] theorem fetchFault_pc : (fetchFault s).pc = s.pc := rfl
@[simp] theorem fetchFault_sp : (fetchFault s).sp = s.sp := rfl
@[simp] theorem fetchFault_stack : (fetchFault s).stack = s.stack := rfl
@[simp] theorem fetchFault_dt : (fetchFault s).dt = s.dt := rfl
@[simp] theorem fetchFault_st : (fetchFault s).st = s.st := rfl
@[simp] theorem fetchFault_keys : (fetchFault s).keys = s.keys := rfl
@[simp] theorem fetchFault_fb : (fetchFault s).fb = s.fb := rfl
@[simp] theorem fetchFault_drawFlag : (fetchFault s).drawFlag = s.drawFlag := rfl
@[simp] theorem fetchFault_mem : (fetchFault s).mem = s.mem := rfl
@[simp] theorem fetchFault_faultRecord : (fetchFault s).faultRecord = some ⟨.fetchBounds, s.pc, none, some (max s.pc.toNat Config.memSize)⟩ := rfl
@[simp] theorem fetchFault_phase : (fetchFault s).phase = s.phase := rfl
@[simp] theorem fetchFault_traceEnable : (fetchFault s).traceEnable = s.traceEnable := rfl
@[simp] theorem fetchFault_soundEnable : (fetchFault s).soundEnable = s.soundEnable := rfl
@[simp] theorem fetchFault_rndInput : (fetchFault s).rndInput = s.rndInput := rfl
@[simp] theorem fetchFault_soundActive : (fetchFault s).soundActive = false := rfl
@[simp] theorem fetchFault_events : (fetchFault s).events = s.events ++ [.fault ⟨.fetchBounds, s.pc, none, some (max s.pc.toNat Config.memSize)⟩] := rfl
@[simp] theorem fetchFault_fresh : (fetchFault s).fresh = s.fresh := rfl
@[simp] theorem fetchFault_reg (r : RegIx) : (fetchFault s).reg r = s.reg r := rfl
@[simp] theorem fetchFault_byteAt (a : Nat) : (fetchFault s).byteAt a = s.byteAt a := rfl
@[simp] theorem fetchFault_pixel (k : Nat) : (fetchFault s).pixel k = s.pixel k := rfl
@[simp] theorem fetchFault_halted : (fetchFault s).halted = true := rfl

/-! ### beginStep -/

@[simp] theorem beginStep_v : (beginStep s).v = s.v := rfl
@[simp] theorem beginStep_i : (beginStep s).i = s.i := rfl
@[simp] theorem beginStep_pc : (beginStep s).pc = s.pc := rfl
@[simp] theorem beginStep_sp : (beginStep s).sp = s.sp := rfl
@[simp] theorem beginStep_stack : (beginStep s).stack = s.stack := rfl
@[simp] theorem beginStep_dt : (beginStep s).dt = s.dt := rfl
@[simp] theorem beginStep_st : (beginStep s).st = s.st := rfl
@[simp] theorem beginStep_keys : (beginStep s).keys = s.keys := rfl
@[simp] theorem beginStep_fb : (beginStep s).fb = s.fb := rfl
@[simp] theorem beginStep_drawFlag : (beginStep s).drawFlag = s.drawFlag := rfl
@[simp] theorem beginStep_mem : (beginStep s).mem = s.mem := rfl
@[simp] theorem beginStep_faultRecord : (beginStep s).faultRecord = s.faultRecord := rfl
@[simp] theorem beginStep_phase : (beginStep s).phase = .run := rfl
@[simp] theorem beginStep_traceEnable : (beginStep s).traceEnable = s.traceEnable := rfl
@[simp] theorem beginStep_soundEnable : (beginStep s).soundEnable = s.soundEnable := rfl
@[simp] theorem beginStep_rndInput : (beginStep s).rndInput = s.rndInput := rfl
@[simp] theorem beginStep_soundActive : (beginStep s).soundActive = false := rfl
@[simp] theorem beginStep_events : (beginStep s).events = [] := rfl
@[simp] theorem beginStep_fresh : (beginStep s).fresh = s.fresh := rfl
@[simp] theorem beginStep_reg (r : RegIx) : (beginStep s).reg r = s.reg r := rfl
@[simp] theorem beginStep_byteAt (a : Nat) : (beginStep s).byteAt a = s.byteAt a := rfl
@[simp] theorem beginStep_pixel (k : Nat) : (beginStep s).pixel k = s.pixel k := rfl
@[simp] theorem beginStep_halted : (beginStep s).halted = s.halted := rfl

/-! ### idleStep -/

@[simp] theorem idleStep_v : (idleStep s).v = s.v := rfl
@[simp] theorem idleStep_i : (idleStep s).i = s.i := rfl
@[simp] theorem idleStep_pc : (idleStep s).pc = s.pc := rfl
@[simp] theorem idleStep_sp : (idleStep s).sp = s.sp := rfl
@[simp] theorem idleStep_stack : (idleStep s).stack = s.stack := rfl
@[simp] theorem idleStep_dt : (idleStep s).dt = s.dt := rfl
@[simp] theorem idleStep_st : (idleStep s).st = s.st := rfl
@[simp] theorem idleStep_keys : (idleStep s).keys = s.keys := rfl
@[simp] theorem idleStep_fb : (idleStep s).fb = s.fb := rfl
@[simp] theorem idleStep_drawFlag : (idleStep s).drawFlag = s.drawFlag := rfl
@[simp] theorem idleStep_mem : (idleStep s).mem = s.mem := rfl
@[simp] theorem idleStep_faultRecord : (idleStep s).faultRecord = s.faultRecord := rfl
@[simp] theorem idleStep_phase : (idleStep s).phase = s.phase := rfl
@[simp] theorem idleStep_traceEnable : (idleStep s).traceEnable = s.traceEnable := rfl
@[simp] theorem idleStep_soundEnable : (idleStep s).soundEnable = s.soundEnable := rfl
@[simp] theorem idleStep_rndInput : (idleStep s).rndInput = s.rndInput := rfl
@[simp] theorem idleStep_soundActive : (idleStep s).soundActive = false := rfl
@[simp] theorem idleStep_events : (idleStep s).events = [] := rfl
@[simp] theorem idleStep_fresh : (idleStep s).fresh = s.fresh := rfl
@[simp] theorem idleStep_reg (r : RegIx) : (idleStep s).reg r = s.reg r := rfl
@[simp] theorem idleStep_byteAt (a : Nat) : (idleStep s).byteAt a = s.byteAt a := rfl
@[simp] theorem idleStep_pixel (k : Nat) : (idleStep s).pixel k = s.pixel k := rfl
@[simp] theorem idleStep_halted : (idleStep s).halted = s.halted := rfl

/-! ### unknownStage -/

@[simp] theorem unknownStage_v (w : Word) : (unknownStage w s).v = s.v := rfl
@[simp] theorem unknownStage_i (w : Word) : (unknownStage w s).i = s.i := rfl
@[simp] theorem unknownStage_pc (w : Word) : (unknownStage w s).pc = s.pc := rfl
@[simp] theorem unknownStage_sp (w : Word) : (unknownStage w s).sp = s.sp := rfl
@[simp] theorem unknownStage_stack (w : Word) : (unknownStage w s).stack = s.stack := rfl
@[simp] theorem unknownStage_dt (w : Word) : (unknownStage w s).dt = s.dt := rfl
@[simp] theorem unknownStage_st (w : Word) : (unknownStage w s).st = s.st := rfl
@[simp] theorem unknownStage_keys (w : Word) : (unknownStage w s).keys = s.keys := rfl
@[simp] theorem unknownStage_fb (w : Word) : (unknownStage w s).fb = s.fb := rfl
@[simp] theorem unknownStage_drawFlag (w : Word) : (unknownStage w s).drawFlag = s.drawFlag := rfl
@[simp] theorem unknownStage_mem (w : Word) : (unknownStage w s).mem = s.mem := rfl
@[simp] theorem unknownStage_faultRecord (w : Word) : (unknownStage w s).faultRecord = s.faultRecord := rfl
@[simp] theorem unknownStage_phase (w : Word) : (unknownStage w s).phase = s.phase := rfl
@[simp] theorem unknownStage_traceEnable (w : Word) : (unknownStage w s).traceEnable = s.traceEnable := rfl
@[simp] theorem unknownStage_soundEnable (w : Word) : (unknownStage w s).soundEnable = s.soundEnable := rfl
@[simp] theorem unknownStage_rndInput (w : Word) : (unknownStage w s).rndInput = s.rndInput := rfl
@[simp] theorem unknownStage_soundActive (w : Word) : (unknownStage w s).soundActive = s.soundActive := rfl
@[simp] theorem unknownStage_events (w : Word) : (unknownStage w s).events = s.events ++ [.unknownOpcode s.pc w] := rfl
@[simp] theorem unknownStage_fresh (w : Word) : (unknownStage w s).fresh = s.fresh := rfl
@[simp] theorem unknownStage_reg (w : Word) (r : RegIx) : (unknownStage w s).reg r = s.reg r := rfl
@[simp] theorem unknownStage_byteAt (w : Word) (a : Nat) : (unknownStage w s).byteAt a = s.byteAt a := rfl
@[simp] theorem unknownStage_pixel (w : Word) (k : Nat) : (unknownStage w s).pixel k = s.pixel k := rfl
@[simp] theorem unknownStage_halted (w : Word) : (unknownStage w s).halted = s.halted := rfl

/-! ### tick -/

@[simp] theorem tick_v : (tick s).v = s.v := rfl
@[simp] theorem tick_i : (tick s).i = s.i := rfl
@[simp] theorem tick_pc : (tick s).pc = s.pc := rfl
@[simp] theorem tick_sp : (tick s).sp = s.sp := rfl
@[simp] theorem tick_stack : (tick s).stack = s.stack := rfl
@[simp] theorem tick_dt : (tick s).dt = countDown s.dt := rfl
@[simp] theorem tick_st : (tick s).st = countDown s.st := rfl
@[simp] theorem tick_keys : (tick s).keys = s.keys := rfl
@[simp] theorem tick_fb : (tick s).fb = s.fb := rfl
@[simp] theorem tick_drawFlag : (tick s).drawFlag = s.drawFlag := rfl
@[simp] theorem tick_mem : (tick s).mem = s.mem := rfl
@[simp] theorem tick_faultRecord : (tick s).faultRecord = s.faultRecord := rfl
@[simp] theorem tick_phase : (tick s).phase = s.phase := rfl
@[simp] theorem tick_traceEnable : (tick s).traceEnable = s.traceEnable := rfl
@[simp] theorem tick_soundEnable : (tick s).soundEnable = s.soundEnable := rfl
@[simp] theorem tick_rndInput : (tick s).rndInput = s.rndInput := rfl
@[simp] theorem tick_soundActive : (tick s).soundActive = (s.st != 0) := rfl
@[simp] theorem tick_events : (tick s).events = if s.soundEnable && s.st != 0 then s.events ++ [.alert] else s.events := rfl
@[simp] theorem tick_fresh : (tick s).fresh = s.fresh := rfl
@[simp] theorem tick_reg (r : RegIx) : (tick s).reg r = s.reg r := rfl
@[simp] theorem tick_byteAt (a : Nat) : (tick s).byteAt a = s.byteAt a := rfl
@[simp] theorem tick_pixel (k : Nat) : (tick s).pixel k = s.pixel k := rfl
@[simp] theorem tick_halted : (tick s).halted = s.halted := rfl

/-! ### storeWordAtPc -/

@[simp] theorem storeWordAtPc_v (w : Word) : (storeWordAtPc s w).v = s.v := rfl
@[simp] theorem storeWordAtPc_i (w : Word) : (storeWordAtPc s w).i = s.i := rfl
@[simp] theorem storeWordAtPc_pc (w : Word) : (storeWordAtPc s w).pc = s.pc := rfl
@[simp] theorem storeWordAtPc_sp (w : Word) : (storeWordAtPc s w).sp = s.sp := rfl
@[simp] theorem storeWordAtPc_stack (w : Word) : (storeWordAtPc s w).stack = s.stack := rfl
@[simp] theorem storeWordAtPc_dt (w : Word) : (storeWordAtPc s w).dt = s.dt := rfl
@[simp] theorem storeWordAtPc_st (w : Word) : (storeWordAtPc s w).st = s.st := rfl
@[simp] theorem storeWordAtPc_keys (w : Word) : (storeWordAtPc s w).keys = s.keys := rfl
@[simp] theorem storeWordAtPc_fb (w : Word) : (storeWordAtPc s w).fb = s.fb := rfl
@[simp] theorem storeWordAtPc_drawFlag (w : Word) : (storeWordAtPc s w).drawFlag = s.drawFlag := rfl
@[simp] theorem storeWordAtPc_mem (w : Word) : (storeWordAtPc s w).mem = s.mem.putBytes s.pc.toNat (bytesOfWord w) := rfl
@[simp] theorem storeWordAtPc_faultRecord (w : Word) : (storeWordAtPc s w).faultRecord = s.faultRecord := rfl
@[simp] theorem storeWordAtPc_phase (w : Word) : (storeWordAtPc s w).phase = s.phase := rfl
@[simp] theorem storeWordAtPc_traceEnable (w : Word) : (storeWordAtPc s w).traceEnable = s.traceEnable := rfl
@[simp] theorem storeWordAtPc_soundEnable (w : Word) : (storeWordAtPc s w).soundEnable = s.soundEnable := rfl
@[simp] theorem storeWordAtPc_rndInput (w : Word) : (storeWordAtPc s w).rndInput = s.rndInput := rfl
@[simp] theorem storeWordAtPc_soundActive (w : Word) : (storeWordAtPc s w).soundActive = s.soundActive := rfl
@[simp] theorem storeWordAtPc_events (w : Word) : (storeWordAtPc s w).events = s.events := rfl
@[simp] theorem storeWordAtPc_fresh (w : Word) : (storeWordAtPc s w).fresh = s.fresh := rfl
@[simp] theorem storeWordAtPc_reg (w : Word) (r : RegIx) : (storeWordAtPc s w).reg r = s.reg r := rfl
@[simp] theorem storeWordAtPc_pixel (w : Word) (k : Nat) : (storeWordAtPc s w).pixel k = s.pixel k := rfl
@[simp] theorem storeWordAtPc_halted (w : Word) : (storeWordAtPc s w).halted = s.halted := rfl

/-! ### traceStage: only the events may change -/

@[simp] theorem traceStage_v (w : Word) : (traceStage w s).v = s.v := by unfold traceStage; split <;> rfl
@[simp] theorem traceStage_i (w : Word) : (traceStage w s).i = s.i := by unfold traceStage; split <;> rfl
@[simp] theorem traceStage_pc (w : Word) : (traceStage w s).pc = s.pc := by unfold traceStage; split <;> rfl
@[simp] theorem traceStage_sp (w : Word) : (traceStage w s).sp = s.sp := by unfold traceStage; split <;> rfl
@[simp] theorem traceStage_stack (w : Word) : (traceStage w s).stack = s.stack := by unfold traceStage; split <;> rfl
@[simp] theorem traceStage_dt (w : Word) : (traceStage w s).dt = s.dt := by unfold traceStage; split <;> rfl
@[simp] theorem traceStage_st (w : Word) : (traceStage w s).st = s.st := by unfold traceStage; split <;> rfl
@[simp] theorem traceStage_keys (w : Word) : (traceStage w s).keys = s.keys := by unfold traceStage; split <;> rfl
@[simp] theorem traceStage_fb (w : Word) : (traceStage w s).fb = s.fb := by unfold traceStage; split <;> rfl
@[simp] theorem traceStage_drawFlag (w : Word) : (traceStage w s).drawFlag = s.drawFlag := by unfold traceStage; split <;> rfl
@[simp] theorem traceStage_mem (w : Word) : (traceStage w s).mem = s.mem := by unfold traceStage; split <;> rfl
@[simp] theorem traceStage_faultRecord (w : Word) : (traceStage w s).faultRecord = s.faultRecord := by unfold traceStage; split <;> rfl
@[simp] theorem traceStage_phase (w : Word) : (traceStage w s).phase = s.phase := by unfold traceStage; split <;> rfl
@[simp] theorem traceStage_traceEnable (w : Word) : (traceStage w s).traceEnable = s.traceEnable := by unfold traceStage; split <;> rfl
@[simp] theorem traceStage_soundEnable (w : Word) : (traceStage w s).soundEnable = s.soundEnable := by unfold traceStage; split <;> rfl
@[simp] theorem traceStage_rndInput (w : Word) : (traceStage w s).rndInput = s.rndInput := by unfold traceStage; split <;> rfl
@[simp] theorem traceStage_soundActive (w : Word) : (traceStage w s).soundActive = s.soundActive := by unfold traceStage; split <;> rfl
@[simp] theorem traceStage_events (w : Word) : (traceStage w s).events =
    if s.traceEnable then s.events ++ [.trace s.pc w s.sp s.v] else s.events := by
  unfold traceStage; split <;> rfl
@[simp] theorem traceStage_fresh (w : Word) : (traceStage w s).fresh = s.fresh := by unfold traceStage; split <;> rfl
@[simp] theorem traceStage_reg (w : Word) (r : RegIx) : (traceStage w s).reg r = s.reg r := by
  unfold traceStage; split <;> rfl
@[simp] theorem traceStage_byteAt (w : Word) (a : Nat) : (traceStage w s).byteAt a = s.byteAt a := by
  unfold traceStage; split <;> rfl
@[simp] theorem traceStage_halted (w : Word) : (traceStage w s).halted = s.halted := by
  unfold traceStage; split <;> rfl

/-! ### Registers: read after write -/

theorem State.reg_setReg (x r : RegIx) (b : Byte) : (s.setReg x b).reg r = if r = x then b else s.reg r := by
  simp only [State.reg, State.setReg, Vector.getElem_set, eq_comm (a := r), BitVec.toNat_inj]

@[simp] theorem State.reg_setReg_same (x : RegIx) (b : Byte) : (s.setReg x b).reg x = b := by
  simp [State.reg_setReg]

theorem State.reg_setReg_other {x r : RegIx} (b : Byte) (h : r ≠ x) : (s.setReg x b).reg r = s.reg r := by
  simp [State.reg_setReg, h]

/-- Two register files that read alike at every number are the same. -/
theorem regs_ext {s t : State} (h : ∀ r, t.reg r = s.reg r) : t.v = s.v := by
  apply Vector.ext
  intro k hk
  have := h (BitVec.ofNat 4 k)
  simpa [State.reg, BitVec.toNat_ofNat, Nat.mod_eq_of_lt hk] using this

end

end Sys2Proof.Machine
end

