-- ==== Sys2Proof/Laws/Ops.lean ====
section
/-! SUPPORT. What each shared operation over registers, keys and operands can do, said once. -/

namespace Sys2Proof.Machine

/-! ## The bounds check and the fault it raises -/

/-- An access at I whose bytes lie in memory has its effect; one whose bytes do not takes DataBoundsFault. -/
theorem withBytesAtI_cases (ins : Instr) (n : Nat) (s t : State) :
    (inMemory s.i.toNat n = true ∧ withBytesAtI ins n s t = .next t) ∨
    (inMemory s.i.toNat n = false ∧ withBytesAtI ins n s t =
      .next (takeFault .dataBounds (some (encode ins)) (some (max s.i.toNat 4096)) s)) := by
  unfold withBytesAtI
  cases h : inMemory s.i.toNat n <;> simp [raise]

theorem inMemory_iff (base n : Nat) : inMemory base n = true ↔ n = 0 ∨ base + n ≤ 4096 := by
  simp [inMemory]

theorem not_inMemory_iff (base n : Nat) : inMemory base n = false ↔ 0 < n ∧ 4095 < base + n - 1 := by
  rw [← Bool.not_eq_true, inMemory_iff]; omega

/-! ## The register block of FX55 and FX65 -/

@[simp] theorem regBlock_length (s : State) (x : RegIx) : (regBlock s x).length = x.toNat + 1 := by
  simp [regBlock]

theorem regBlock_getElem (s : State) (x : RegIx) {k : Nat} (hk : k < (regBlock s x).length) :
    (regBlock s x)[k] = s.reg (BitVec.ofNat 4 k) := by
  simp [regBlock]

theorem loadRegsFrom_succ (s : State) (base n : Nat) : s.loadRegsFrom base (n + 1) =
    (s.loadRegsFrom base n).setReg (BitVec.ofNat 4 n) ((s.loadRegsFrom base n).mem.get (base + n)) := by
  simp [State.loadRegsFrom, List.range_succ]

/-- Loading registers changes nothing but V. -/
theorem loadRegsFrom_frame (s : State) (base n : Nat) :
    s.loadRegsFrom base n = { s with v := (s.loadRegsFrom base n).v } := by
  induction n with
  | zero => rfl
  | succ n ih => rw [loadRegsFrom_succ, ih]; rfl

/-- Registers below n hold the bytes at `base` on; the others are as before. -/
theorem loadRegsFrom_reg (s : State) (base : Nat) {n : Nat} (hn : n ≤ 16) (r : RegIx) :
    (s.loadRegsFrom base n).reg r = if r.toNat < n then s.byteAt (base + r.toNat) else s.reg r := by
  induction n with
  | zero => simp [State.loadRegsFrom]
  | succ n ih =>
    have hmem : (s.loadRegsFrom base n).mem = s.mem := by rw [loadRegsFrom_frame]
    rw [loadRegsFrom_succ, State.reg_setReg, ih (by omega), hmem]
    have hr : r = BitVec.ofNat 4 n ↔ r.toNat = n := by
      rw [← BitVec.toNat_inj, BitVec.toNat_ofNat, Nat.mod_eq_of_lt (by omega)]
    by_cases h : r.toNat = n
    · rw [if_pos (hr.2 h), if_pos (by omega), h]; rfl
    · rw [if_neg (mt hr.1 h)]
      exact if_congr (by omega) rfl rfl

/-! ## Keys -/

theorem keyLevel_of_lt (s : State) {k : Byte} (h : k.toNat < 16) : keyLevel s k = some (s.keyDown k.toNat) :=
  if_pos h

theorem keyLevel_of_ge (s : State) {k : Byte} (h : 15 < k.toNat) : keyLevel s k = none :=
  if_neg (by omega)

/-- The scan of the first n keys: the highest pressed one, or none pressed. -/
theorem scan_spec (down : Nat → Bool) (n : Nat) :
    match (List.range n).foldl (fun found k => if down k then some k else found) none with
    | some k => k < n ∧ down k = true ∧ ∀ j, k < j → j < n → down j = false
    | none => ∀ j, j < n → down j = false := by
  induction n with
  | zero => simp
  | succ n ih =>
    rw [List.range_succ, List.foldl_append]
    simp only [List.foldl_cons, List.foldl_nil]
    cases hd : down n with
    | true => exact ⟨Nat.lt_succ_self n, hd, fun j h1 h2 => by omega⟩
    | false =>
      revert ih
      cases (List.range n).foldl (fun found k => if down k then some k else found) none with
      | some k =>
        rintro ⟨h1, h2, h3⟩
        refine ⟨by omega, h2, fun j hkj hj => ?_⟩
        rcases Nat.lt_succ_iff_lt_or_eq.1 hj with hj | rfl
        · exact h3 j hkj hj
        · exact hd
      | none =>
        intro ih j hj
        rcases Nat.lt_succ_iff_lt_or_eq.1 hj with hj | rfl
        · exact ih j hj
        · exact hd

/-- What the scan of FX0A finds. -/
theorem lastPressed_spec (s : State) :
    match lastPressed s with
    | some k => k < 16 ∧ s.keyDown k = true ∧ ∀ j, k < j → j < 16 → s.keyDown j = false
    | none => ∀ j, j < 16 → s.keyDown j = false :=
  scan_spec (fun k => s.keyDown k) 16

/-! ## Operands -/

theorem addrOperand_toNat (nnn : Addr) : (addrOperand nnn).toNat = nnn.toNat := by
  have := nnn.isLt
  simp [addrOperand, BitVec.toNat_setWidth]; omega

theorem indexedTarget_toNat (s : State) (nnn : Addr) :
    (indexedTarget s nnn).toNat = nnn.toNat + (s.reg 0).toNat := by
  have h1 := nnn.isLt
  have h2 := (s.reg 0).isLt
  simp only [indexedTarget, BitVec.toNat_add, addrOperand_toNat, BitVec.toNat_setWidth]
  omega

theorem glyphAddr_toNat (b : Byte) : (glyphAddr b).toNat = b.toNat * 5 := by
  have := b.isLt
  simp only [glyphAddr, BitVec.toNat_ofNat, Config.glyphBytes]
  omega

@[simp] theorem decimalDigits_length (b : Byte) : (decimalDigits b).length = 3 := rfl

@[simp] theorem bytesOfWord_length (w : Word) : (bytesOfWord w).length = 2 := rfl

/-! ## Flags are 0 or 1 -/

theorem flag_eq_one_iff (c : Bool) : flag c = 1 ↔ c = true := by cases c <;> decide

theorem flag_eq_zero_iff (c : Bool) : flag c = 0 ↔ c = false := by cases c <;> decide

theorem lowBitFlag_eq (b : Byte) : lowBitFlag b = flag (b.getLsbD 0) := by
  revert b; decide

theorem highBitFlag_eq (b : Byte) : highBitFlag b = flag (b.getLsbD 7) := by
  revert b; decide

end Sys2Proof.Machine
end

