-- ==== Sys2Proof/Laws/PerInstr.lean ====
section
/-! SUPPORT. Per-instruction statements, one lemma for each constructor of `Instr`. -/

namespace Sys2Proof.Laws

/-- The family EncodeRow: an instruction's word is of the instruction's own row of R58, and that row is the one its
number names. -/
def EncodeRow.Statement (i : Instr) : Prop :=
  ∃ r, opcodeMap[i.rowNumber - 1]? = some r ∧ r.number = i.rowNumber ∧ r.admits (encode i) = true

/-- How a lemma of the family is shown: the word under the row's mask. -/
theorem encodeRow_of {i : Instr} (r : Row) (hr : opcodeMap[i.rowNumber - 1]? = some r) (hn : r.number = i.rowNumber)
    (hm : encode i &&& r.mask = r.bits) : EncodeRow.Statement i :=
  ⟨r, hr, hn, by simp [Row.admits, hm]⟩

theorem EncodeRow.cls : EncodeRow.Statement .cls :=
  encodeRow_of opcodeMap[0] rfl rfl (rfl)

theorem EncodeRow.ret : EncodeRow.Statement .ret :=
  encodeRow_of opcodeMap[1] rfl rfl (rfl)

theorem EncodeRow.jp (a : Addr) : EncodeRow.Statement (.jp a) :=
  encodeRow_of opcodeMap[2] rfl rfl ((mask_FA _ _).trans rfl)

theorem EncodeRow.call (a : Addr) : EncodeRow.Statement (.call a) :=
  encodeRow_of opcodeMap[3] rfl rfl ((mask_FA _ _).trans rfl)

theorem EncodeRow.seImm (x : RegIx) (k : Byte) : EncodeRow.Statement (.seImm x k) :=
  encodeRow_of opcodeMap[4] rfl rfl ((mask_FXNN _ _ _).trans rfl)

theorem EncodeRow.sneImm (x : RegIx) (k : Byte) : EncodeRow.Statement (.sneImm x k) :=
  encodeRow_of opcodeMap[5] rfl rfl ((mask_FXNN _ _ _).trans rfl)

theorem EncodeRow.seReg (x : RegIx) (y : RegIx) : EncodeRow.Statement (.seReg x y) :=
  encodeRow_of opcodeMap[6] rfl rfl ((mask_FXY _ _ _ _).trans rfl)

theorem EncodeRow.ldImm (x : RegIx) (k : Byte) : EncodeRow.Statement (.ldImm x k) :=
  encodeRow_of opcodeMap[7] rfl rfl ((mask_FXNN _ _ _).trans rfl)

theorem EncodeRow.addImm (x : RegIx) (k : Byte) : EncodeRow.Statement (.addImm x k) :=
  encodeRow_of opcodeMap[8] rfl rfl ((mask_FXNN _ _ _).trans rfl)

theorem EncodeRow.ldReg (x : RegIx) (y : RegIx) : EncodeRow.Statement (.ldReg x y) :=
  encodeRow_of opcodeMap[9] rfl rfl ((mask_FXY _ _ _ _).trans rfl)

theorem EncodeRow.orReg (x : RegIx) (y : RegIx) : EncodeRow.Statement (.orReg x y) :=
  encodeRow_of opcodeMap[10] rfl rfl ((mask_FXY _ _ _ _).trans rfl)

theorem EncodeRow.andReg (x : RegIx) (y : RegIx) : EncodeRow.Statement (.andReg x y) :=
  encodeRow_of opcodeMap[11] rfl rfl ((mask_FXY _ _ _ _).trans rfl)

theorem EncodeRow.xorReg (x : RegIx) (y : RegIx) : EncodeRow.Statement (.xorReg x y) :=
  encodeRow_of opcodeMap[12] rfl rfl ((mask_FXY _ _ _ _).trans rfl)

theorem EncodeRow.addReg (x : RegIx) (y : RegIx) : EncodeRow.Statement (.addReg x y) :=
  encodeRow_of opcodeMap[13] rfl rfl ((mask_FXY _ _ _ _).trans rfl)

theorem EncodeRow.subReg (x : RegIx) (y : RegIx) : EncodeRow.Statement (.subReg x y) :=
  encodeRow_of opcodeMap[14] rfl rfl ((mask_FXY _ _ _ _).trans rfl)

theorem EncodeRow.shr (x : RegIx) (y : RegIx) : EncodeRow.Statement (.shr x y) :=
  encodeRow_of opcodeMap[15] rfl rfl ((mask_FXY _ _ _ _).trans rfl)

theorem EncodeRow.subn (x : RegIx) (y : RegIx) : EncodeRow.Statement (.subn x y) :=
  encodeRow_of opcodeMap[16] rfl rfl ((mask_FXY _ _ _ _).trans rfl)

theorem EncodeRow.shl (x : RegIx) (y : RegIx) : EncodeRow.Statement (.shl x y) :=
  encodeRow_of opcodeMap[17] rfl rfl ((mask_FXY _ _ _ _).trans rfl)

theorem EncodeRow.sneReg (x : RegIx) (y : RegIx) : EncodeRow.Statement (.sneReg x y) :=
  encodeRow_of opcodeMap[18] rfl rfl ((mask_FXY _ _ _ _).trans rfl)

theorem EncodeRow.ldI (a : Addr) : EncodeRow.Statement (.ldI a) :=
  encodeRow_of opcodeMap[19] rfl rfl ((mask_FA _ _).trans rfl)

theorem EncodeRow.jpV0 (a : Addr) : EncodeRow.Statement (.jpV0 a) :=
  encodeRow_of opcodeMap[20] rfl rfl ((mask_FA _ _).trans rfl)

theorem EncodeRow.rnd (x : RegIx) (k : Byte) : EncodeRow.Statement (.rnd x k) :=
  encodeRow_of opcodeMap[21] rfl rfl ((mask_FXNN _ _ _).trans rfl)

theorem EncodeRow.drw (x : RegIx) (y : RegIx) (n : Nibble) : EncodeRow.Statement (.drw x y n) :=
  encodeRow_of opcodeMap[22] rfl rfl ((mask_FXYN _ _ _ _).trans rfl)

theorem EncodeRow.skp (x : RegIx) : EncodeRow.Statement (.skp x) :=
  encodeRow_of opcodeMap[23] rfl rfl ((mask_FX _ _ _).trans rfl)

theorem EncodeRow.sknp (x : RegIx) : EncodeRow.Statement (.sknp x) :=
  encodeRow_of opcodeMap[24] rfl rfl ((mask_FX _ _ _).trans rfl)

theorem EncodeRow.ldVxDT (x : RegIx) : EncodeRow.Statement (.ldVxDT x) :=
  encodeRow_of opcodeMap[25] rfl rfl ((mask_FX _ _ _).trans rfl)

theorem EncodeRow.ldVxK (x : RegIx) : EncodeRow.Statement (.ldVxK x) :=
  encodeRow_of opcodeMap[26] rfl rfl ((mask_FX _ _ _).trans rfl)

theorem EncodeRow.ldDTVx (x : RegIx) : EncodeRow.Statement (.ldDTVx x) :=
  encodeRow_of opcodeMap[27] rfl rfl ((mask_FX _ _ _).trans rfl)

theorem EncodeRow.ldSTVx (x : RegIx) : EncodeRow.Statement (.ldSTVx x) :=
  encodeRow_of opcodeMap[28] rfl rfl ((mask_FX _ _ _).trans rfl)

theorem EncodeRow.addI (x : RegIx) : EncodeRow.Statement (.addI x) :=
  encodeRow_of opcodeMap[29] rfl rfl ((mask_FX _ _ _).trans rfl)

theorem EncodeRow.ldF (x : RegIx) : EncodeRow.Statement (.ldF x) :=
  encodeRow_of opcodeMap[30] rfl rfl ((mask_FX _ _ _).trans rfl)

theorem EncodeRow.ldB (x : RegIx) : EncodeRow.Statement (.ldB x) :=
  encodeRow_of opcodeMap[31] rfl rfl ((mask_FX _ _ _).trans rfl)

theorem EncodeRow.storeRegs (x : RegIx) : EncodeRow.Statement (.storeRegs x) :=
  encodeRow_of opcodeMap[32] rfl rfl ((mask_FX _ _ _).trans rfl)

theorem EncodeRow.loadRegs (x : RegIx) : EncodeRow.Statement (.loadRegs x) :=
  encodeRow_of opcodeMap[33] rfl rfl ((mask_FX _ _ _).trans rfl)

end Sys2Proof.Laws
end

