-- ==== Sys2Proof/Laws/Raster.lean ====
section
/-! SUPPORT. What the XOR raster engine does to each pixel (spec/41_display.md R68). -/

namespace Sys2Proof.Machine

theorem getD_eq_dite {α : Type} {n : Nat} (xs : Vector α n) (j : Nat) (d : α) :
    xs.getD j d = if h : j < n then xs[j] else d := by
  obtain ⟨xs, rfl⟩ := xs
  rfl

theorem getD_setIfInBounds {α : Type} {n : Nat} (xs : Vector α n) (i j : Nat) (a d : α) :
    (xs.setIfInBounds i a).getD j d = if i = j ∧ j < n then a else xs.getD j d := by
  by_cases hj : j < n
  · simp only [getD_eq_dite, hj, Vector.getElem_setIfInBounds, dite_true, and_true]
  · simp [getD_eq_dite, hj]

/-- A toggle inverts one pixel and leaves every other. -/
theorem pixelOf_toggle (fb : Framebuffer) {idx : Nat} (j : Nat) (h : idx < 2048) :
    pixelOf (togglePixel fb idx) j = (pixelOf fb j ^^ decide (j = idx)) := by
  simp only [pixelOf, togglePixel, Config.fbWidth, getD_setIfInBounds]
  by_cases hrow : idx / 64 = j / 64
  · rw [if_pos ⟨hrow, by omega⟩, hrow, BitVec.getLsbD_xor, BitVec.getLsbD_twoPow]
    congr 1
    have h64 : idx % 64 < 64 := Nat.mod_lt _ (by decide)
    simp only [h64, decide_true, Bool.true_and]
    exact decide_eq_decide.2 (by omega)
  · rw [if_neg (fun hh => hrow hh.1)]
    have : j ≠ idx := by rintro rfl; exact hrow rfl
    simp [this]

@[simp] theorem pixelOf_blank (j : Nat) : pixelOf blankDisplay j = false := by
  simp only [pixelOf, blankDisplay, getD_eq_dite]
  split <;> simp

/-- Plotting a list of different pixels: each is inverted, and a hit is recorded when one of them was set. -/
theorem foldl_plot (l : List Nat) (hnd : l.Nodup) (hlt : ∀ k ∈ l, k < 2048) (c : Canvas) :
    (∀ j, pixelOf (l.foldl Canvas.plot c).fb j = (pixelOf c.fb j ^^ decide (j ∈ l))) ∧
    ((l.foldl Canvas.plot c).hit = true ↔ c.hit = true ∨ ∃ k ∈ l, pixelOf c.fb k = true) := by
  induction l generalizing c with
  | nil => simp
  | cons k rest ih =>
    obtain ⟨hk, hnd⟩ := List.nodup_cons.1 hnd
    have hk2 : k < 2048 := hlt k (by simp)
    obtain ⟨ih1, ih2⟩ := ih hnd (fun m hm => hlt m (by simp [hm])) (c.plot k)
    refine ⟨fun j => ?_, ?_⟩
    · rw [List.foldl_cons, ih1 j]
      simp only [Canvas.plot, pixelOf_toggle _ _ hk2, List.mem_cons]
      by_cases hjk : j = k
      · subst hjk; simp [hk]
      · simp [hjk]
    · rw [List.foldl_cons, ih2]
      simp only [Canvas.plot, Bool.or_eq_true, List.mem_cons, or_assoc]
      refine or_congr_right ⟨?_, ?_⟩
      · rintro (h | ⟨m, hm, hp⟩)
        · exact ⟨k, .inl rfl, h⟩
        · have hne : m ≠ k := fun he => hk (he ▸ hm)
          exact ⟨m, .inr hm, by simpa [pixelOf_toggle _ _ hk2, hne] using hp⟩
      · rintro ⟨m, rfl | hm, hp⟩
        · exact .inl hp
        · have hne : m ≠ k := fun he => hk (he ▸ hm)
          exact .inr ⟨m, hm, by simpa [pixelOf_toggle _ _ hk2, hne] using hp⟩

/-- A pixel is a sprite's when some set bit of some row names it. -/
theorem mem_spritePixels {m : Memory} {base x0 y0 n k : Nat} : k ∈ spritePixels m base x0 y0 n ↔
    ∃ row < n, ∃ col < 8, (m.get (base + row)).getLsbD (7 - col) = true ∧ pixelIndex x0 y0 row col = k := by
  simp only [spritePixels, List.mem_flatMap, List.mem_map, List.mem_filter, List.mem_range, and_assoc]

theorem pixelIndex_lt (x0 y0 row col : Nat) : pixelIndex x0 y0 row col < 2048 := Nat.mod_lt _ (by decide)

/-- No two cells of a sprite of at most 15 rows are the same pixel (R68: "No pixel is toggled twice in one DXYN"). -/
theorem pixelIndex_inj {x0 y0 row col row' col' : Nat} (hr : row < 15) (hr' : row' < 15) (hc : col < 8)
    (hc' : col' < 8) (h : pixelIndex x0 y0 row col = pixelIndex x0 y0 row' col') : row = row' ∧ col = col' := by
  simp only [pixelIndex, Config.fbWidth, Config.fbSize] at h
  omega

theorem nodup_spritePixels (m : Memory) (base x0 y0 : Nat) {n : Nat} (hn : n ≤ 15) :
    (spritePixels m base x0 y0 n).Nodup := by
  refine List.nodup_flatMap.2 ⟨fun row hrow => ?_, ?_⟩
  · refine List.Nodup.map_on ?_ (List.Nodup.filter _ List.nodup_range)
    intro c hc c' hc' h
    simp only [List.mem_filter, List.mem_range] at hc hc' hrow
    exact (pixelIndex_inj (by omega) (by omega) hc.1 hc'.1 h).2
  · refine List.Pairwise.imp_of_mem ?_ List.nodup_range
    intro row row' hrow hrow' hne k hk hk'
    simp only [List.mem_map, List.mem_filter, List.mem_range] at hk hk' hrow hrow'
    obtain ⟨c, ⟨hc, -⟩, rfl⟩ := hk
    obtain ⟨c', ⟨hc', -⟩, h⟩ := hk'
    exact hne (pixelIndex_inj (by omega) (by omega) hc hc' h.symm).1

/-- Each pixel after a draw: inverted where the sprite has it. -/
theorem drawSprite_pixel (m : Memory) (base x0 y0 : Nat) {n : Nat} (hn : n ≤ 15) (fb : Framebuffer) (j : Nat) :
    pixelOf (drawSprite m base x0 y0 n fb).fb j = (pixelOf fb j ^^ decide (j ∈ spritePixels m base x0 y0 n)) :=
  (foldl_plot _ (nodup_spritePixels m base x0 y0 hn) (fun _ hk => by
    obtain ⟨row, _, col, _, _, rfl⟩ := mem_spritePixels.1 hk
    exact pixelIndex_lt x0 y0 row col) ⟨fb, false⟩).1 j

/-- A draw collides exactly when a pixel of the sprite was set. -/
theorem drawSprite_hit (m : Memory) (base x0 y0 : Nat) {n : Nat} (hn : n ≤ 15) (fb : Framebuffer) :
    (drawSprite m base x0 y0 n fb).hit = true ↔ ∃ k ∈ spritePixels m base x0 y0 n, pixelOf fb k = true := by
  have := (foldl_plot _ (nodup_spritePixels m base x0 y0 hn) (fun _ hk => by
    obtain ⟨row, _, col, _, _, rfl⟩ := mem_spritePixels.1 hk
    exact pixelIndex_lt x0 y0 row col) ⟨fb, false⟩).2
  simpa [drawSprite] using this

/-- Framebuffers that show the same 2048 pixels are equal. -/
theorem framebuffer_ext {fb fb' : Framebuffer} (h : ∀ k < 2048, pixelOf fb k = pixelOf fb' k) : fb = fb' := by
  apply Vector.ext
  intro r hr
  apply BitVec.eq_of_getLsbD_eq
  intro c hc
  have := h (64 * r + c) (by omega)
  have hd : (64 * r + c) / 64 = r := by omega
  have hm : (64 * r + c) % 64 = c := by omega
  simpa [pixelOf, hd, hm, getD_eq_dite, hr] using this

end Sys2Proof.Machine
end

