-- ==== Sys2Proof/Laws/Step.lean ====
section
/-! SUPPORT. What a step can do, said once: the cases of `step`, and what the stages around the instruction are. -/

namespace Sys2Proof.Machine

theorem beginStep_trace (s : State) (w : Word) : traceStage w (beginStep s) =
    { s with
      soundActive := false
      events := if s.traceEnable then [.trace s.pc w s.sp s.v] else []
      phase := .run } := by
  unfold traceStage
  cases h : s.traceEnable <;> simp [State.emit, beginStep, h]

theorem fetch_beginStep (s : State) : fetch (beginStep s) = fetch s := rfl

theorem fetch_of_le {s : State} (h : s.pc.toNat ≤ 4094) :
    fetch s = some (wordOfBytes (s.byteAt s.pc.toNat) (s.byteAt (s.pc.toNat + 1))) := if_pos h

theorem fetch_of_gt {s : State} (h : 4094 < s.pc.toNat) : fetch s = none := if_neg (by omega)

theorem endStep_next_eq {r : Result} {t : State} (h : endStep r = .next t) :
    ∃ u, r = .next u ∧ (u.halted = true ∧ t = u ∨ u.halted = false ∧ t = tick u) := by
  cases r with
  | next u =>
    refine ⟨u, rfl, ?_⟩
    simp only [endStep, Host.Outcome.next.injEq] at h
    cases hu : u.halted with
    | true => exact .inl ⟨rfl, by simpa [hu] using h.symm⟩
    | false => exact .inr ⟨rfl, by simpa [hu] using h.symm⟩
  | fault f => simp [endStep] at h
  | refused r => simp [endStep] at h

/-- Everything a step that answers a next state can have done: nothing, in a halted block (R65); the fetch's fault
(R55); an UNKNOWN word (R107); an instruction that faulted (R109); an instruction and the tick (R64). -/
theorem step_cases {s t : State} (h : step s = .next t) :
    s.phase ≠ .poisoned ∧
    ((s.halted = true ∧ t = idleStep s) ∨
     (s.halted = false ∧ fetch s = none ∧ t = fetchFault (beginStep s)) ∨
     (∃ op, s.halted = false ∧ fetch s = some op ∧ decode op = none ∧
       t = tick (unknownStage op (traceStage op (beginStep s)))) ∨
     (∃ op i u, s.halted = false ∧ fetch s = some op ∧ decode op = some i ∧
       exec i (traceStage op (beginStep s)) = .next u ∧ u.halted = true ∧ t = u) ∨
     (∃ op i u, s.halted = false ∧ fetch s = some op ∧ decode op = some i ∧
       exec i (traceStage op (beginStep s)) = .next u ∧ u.halted = false ∧ t = tick u)) := by
  unfold step at h
  by_cases hp : s.phase = .poisoned
  · simp [hp] at h
  rw [if_neg hp, fetch_beginStep] at h
  refine ⟨hp, ?_⟩
  cases hh : s.halted with
  | true =>
    simp only [hh, if_true, Host.Outcome.next.injEq] at h
    exact .inl ⟨rfl, h.symm⟩
  | false =>
    simp only [hh, Bool.false_eq_true, if_false] at h
    cases hf : fetch s with
    | none =>
      simp only [hf, Host.Outcome.next.injEq] at h
      exact .inr (.inl ⟨rfl, rfl, h.symm⟩)
    | some op =>
      simp only [hf] at h
      cases hd : decode op with
      | none =>
        simp only [hd] at h
        obtain ⟨u, hu, hcase⟩ := endStep_next_eq h
        obtain rfl := (Host.Outcome.next.inj hu).symm
        have hnh : (unknownStage op (traceStage op (beginStep s))).halted = false := by simp [hh]
        rcases hcase with ⟨hc, -⟩ | ⟨-, ht⟩
        · simp [hnh] at hc
        · exact .inr (.inr (.inl ⟨op, rfl, rfl, hd, ht⟩))
      | some i =>
        simp only [hd] at h
        obtain ⟨u, hu, ⟨hc, ht⟩ | ⟨hc, ht⟩⟩ := endStep_next_eq h
        · exact .inr (.inr (.inr (.inl ⟨op, i, u, rfl, rfl, hd, hu, hc, ht⟩)))
        · exact .inr (.inr (.inr (.inr ⟨op, i, u, rfl, rfl, hd, hu, hc, ht⟩)))

/-- A step of a running block that fetches an instruction is that instruction and what ends the step. -/
theorem step_of_decode {s : State} {op : Word} {i : Instr} (hp : s.phase ≠ .poisoned) (hh : s.halted = false)
    (hf : fetch s = some op) (hd : decode op = some i) :
    step s = endStep (exec i (traceStage op (beginStep s))) := by
  simp [step, hp, hh, fetch_beginStep, hf, hd]

/-- A step of a running block that fetches an UNKNOWN word. -/
theorem step_of_unknown {s : State} {op : Word} (hp : s.phase ≠ .poisoned) (hh : s.halted = false)
    (hf : fetch s = some op) (hd : decode op = none) :
    step s = .next (tick (unknownStage op (traceStage op (beginStep s)))) := by
  simp [step, hp, hh, fetch_beginStep, hf, hd, endStep]

theorem countDown_toNat (b : Byte) : (countDown b).toNat = b.toNat - 1 := by
  revert b; decide

end Sys2Proof.Machine
end

