-- ==== Sys2Proof/Tests/Slice0.lean ====
section
/-! SUPPORT. The model's own tests. Expected results are those of spec/95_test_vectors.md (its row stands in each
comment) or of the worked example of the rule named, except row A5's VF (log entry 7). The last part shows, for each
statement with hypotheses, a state and operands that meet them. -/

namespace Sys2Proof.Tests

open Sys2Proof Sys2Proof.Machine

/-! ## Helpers -/

/-- The next state of a result, if it is one. -/
def nx? : Result → Option State
  | .next t => some t
  | .fault _ => none
  | .refused _ => none

/-- What a test looks at in the next state. -/
def seen {α : Type} (r : Result) (f : State → α) : Option α := (nx? r).map f

/-- The reset state with the suggested FONT. -/
def s0 : State := State.resetWith (some suggestedFont)

/-- The reset state with some registers set. -/
def regs (l : List (RegIx × Byte)) : State := l.foldl (fun s p => s.setReg p.1 p.2) s0

/-- Bytes placed in memory. -/
def bytesAt (a : Nat) (bs : List Byte) (s : State) : State := s.setMem (s.mem.putBytes a bs)

/-- A word placed at PC. -/
def word (w : Nat) (s : State) : State := s.withFetchWord 16 w

/-- Keys pressed. -/
def press (ks : List Nat) (s : State) : State := { s with keys := ks.foldl (fun v k => v.setIfInBounds k true) s.keys }

/-- Pixels set on a blank framebuffer. -/
def pixels (l : List Nat) : Framebuffer := l.foldl togglePixel blankDisplay

/-! ## WellFormed: an ill-formed line for each check -/

theorem test_wf_register_16_is_refused : (Line.mk .LD [.reg 16, .const 0]).wellFormed = false := by decide
theorem test_wf_second_register_16_is_refused : (Line.mk .ADD [.reg 0, .reg 16]).wellFormed = false := by decide
theorem test_wf_byte_256_is_refused : (Line.mk .SE [.reg 0, .const 256]).wellFormed = false := by decide
theorem test_wf_address_4096_is_refused : (Line.mk .JP [.const 4096]).wellFormed = false := by decide
theorem test_wf_rows_16_are_refused : (Line.mk .DRW [.reg 0, .reg 0, .const 16]).wellFormed = false := by decide
theorem test_wf_jump_through_v1_is_refused : (Line.mk .JP [.reg 1, .const 0]).wellFormed = false := by decide
theorem test_wf_operand_form_is_refused : (Line.mk .LD [.kwDT, .const 3]).wellFormed = false := by decide
theorem test_wf_missing_operand_is_refused : (Line.mk .ADD [.reg 3]).wellFormed = false := by decide
theorem test_wf_good_line : (Line.mk .DRW [.reg 15, .reg 0, .const 15]).toInstr = some (.drw 15 0 15) := by decide

/-! ## Decoding: a word of each row of R58, written out from its pattern -/

theorem test_decode_display_and_flow :
    decode 0x00E0 = some .cls ∧ decode 0x00EE = some .ret ∧ decode 0x1208 = some (.jp 0x208) ∧
    decode 0x2FED = some (.call 0xFED) ∧ decode 0xB300 = some (.jpV0 0x300) ∧
    decode 0xD12F = some (.drw 1 2 0xF) := by decide

theorem test_decode_skips :
    decode 0x3A42 = some (.seImm 0xA 0x42) ∧ decode 0x4A42 = some (.sneImm 0xA 0x42) ∧
    decode 0x5120 = some (.seReg 1 2) ∧ decode 0x9120 = some (.sneReg 1 2) ∧ decode 0xE59E = some (.skp 5) ∧
    decode 0xE5A1 = some (.sknp 5) := by decide

theorem test_decode_alu :
    decode 0x6A2B = some (.ldImm 0xA 0x2B) ∧ decode 0x7A2B = some (.addImm 0xA 0x2B) ∧
    decode 0x8120 = some (.ldReg 1 2) ∧ decode 0x8121 = some (.orReg 1 2) ∧ decode 0x8122 = some (.andReg 1 2) ∧
    decode 0x8123 = some (.xorReg 1 2) ∧ decode 0x8124 = some (.addReg 1 2) ∧ decode 0x8125 = some (.subReg 1 2) ∧
    decode 0x8126 = some (.shr 1 2) ∧ decode 0x8127 = some (.subn 1 2) ∧ decode 0x812E = some (.shl 1 2) ∧
    decode 0xC30F = some (.rnd 3 0x0F) := by decide

theorem test_decode_index_timer_key :
    decode 0xA300 = some (.ldI 0x300) ∧ decode 0xF11E = some (.addI 1) ∧ decode 0xF129 = some (.ldF 1) ∧
    decode 0xF133 = some (.ldB 1) ∧ decode 0xF155 = some (.storeRegs 1) ∧ decode 0xF165 = some (.loadRegs 1) ∧
    decode 0xF107 = some (.ldVxDT 1) ∧ decode 0xF10A = some (.ldVxK 1) ∧ decode 0xF115 = some (.ldDTVx 1) ∧
    decode 0xF118 = some (.ldSTVx 1) := by decide

/-- R59: a word of each range. -/
theorem test_decode_unknown :
    decode 0x0000 = none ∧ decode 0x00E1 = none ∧ decode 0x5121 = none ∧ decode 0x8128 = none ∧
    decode 0x812F = none ∧ decode 0x912F = none ∧ decode 0xE59F = none ∧ decode 0xF100 = none := by decide

/-- R43: the first byte holds bits 15:8. R61: a lone byte is no instruction. -/
theorem test_decode_bytes :
    decodeTableWord 16 0xD125 = some (.drw 1 2 5) ∧ bytesOfWord 0xD125 = [0xD1, 0x25] ∧
    (match decodeBytes [0xD1] with | .error .truncated => true | _ => false) = true := by decide

/-! ## Instructions, in the order of R58 -/

/-- D1. -/
theorem test_cls : seen (exec .cls { s0 with fb := pixels [0, 100, 2047] })
    (fun t => (t.fb, t.drawFlag, t.pc)) = some (blankDisplay, true, 0x202) := by decide

/-- F1. -/
theorem test_ret : seen (exec .ret { s0 with pc := 0x210, sp := 1, stack := s0.stack.set 0 0x204 })
    (fun t => (t.sp, t.pc, t.stack[0])) = some (0, 0x206, 0x204) := by decide

/-- F2. -/
theorem test_ret_underflow : seen (exec .ret s0) (fun t => (t.faultRecord, t.pc)) =
    some (some ⟨.stackUnderflow, 0x200, some 0x00EE, none⟩, 0x200) := by decide

/-- F3. -/
theorem test_jp : seen (exec (.jp 0x208) s0) State.pc = some 0x208 := by decide

/-- F6. -/
theorem test_call : seen (exec (.call 0x300) { s0 with sp := 15 })
    (fun t => (t.stack[15], t.sp, t.pc)) = some (0x200, 16, 0x300) := by decide

/-- F7. -/
theorem test_call_overflow : seen (exec (.call 0x300) { s0 with sp := 16 })
    (fun t => (t.faultRecord, t.sp, t.stack)) = some (some ⟨.stackOverflow, 0x200, some 0x2300, none⟩, 16, s0.stack) := by decide

/-- S1, S2. -/
theorem test_se_imm : seen (exec (.seImm 3 0x42) (regs [(3, 0x42)])) State.pc = some 0x204 ∧
    seen (exec (.seImm 3 0x42) (regs [(3, 0x41)])) State.pc = some 0x202 := by decide

/-- S3, S4. -/
theorem test_sne_imm : seen (exec (.sneImm 3 0x42) (regs [(3, 0x41)])) State.pc = some 0x204 ∧
    seen (exec (.sneImm 3 0x42) (regs [(3, 0x42)])) State.pc = some 0x202 := by decide

/-- S5, S6. -/
theorem test_se_reg : seen (exec (.seReg 1 2) (regs [(1, 7), (2, 7)])) State.pc = some 0x204 ∧
    seen (exec (.seReg 1 2) (regs [(1, 7), (2, 8)])) State.pc = some 0x202 := by decide

/-- A1. -/
theorem test_ld_imm : seen (exec (.ldImm 0xA 0x2B) s0) (fun t => (t.reg 0xA, t.pc)) = some (0x2B, 0x202) := by decide

/-- A2, A3. -/
theorem test_add_imm :
    seen (exec (.addImm 1 1) (regs [(1, 0xFF), (VF, 3)])) (fun t => (t.reg 1, t.reg VF)) = some (0, 3) ∧
    seen (exec (.addImm VF 1) (regs [(VF, 0xFF)])) (fun t => t.reg VF) = some 0 := by decide

/-- A4. -/
theorem test_ld_reg : seen (exec (.ldReg 1 2) (regs [(2, 9)])) (fun t => (t.reg 1, t.reg 2)) = some (9, 9) := by decide

/-- The example of R85 (VF = 0; row A5 has VF = 1, log entry 7). -/
theorem test_or : seen (exec (.orReg 1 2) (regs [(1, 0x0F), (2, 0xF0), (VF, 1)]))
    (fun t => (t.reg 1, t.reg VF)) = some (0xFF, 0) := by decide

/-- A6. -/
theorem test_and : seen (exec (.andReg 1 2) (regs [(1, 0x3C), (2, 0x0F), (VF, 1)]))
    (fun t => (t.reg 1, t.reg VF)) = some (0x0C, 0) := by decide

/-- A7. -/
theorem test_xor : seen (exec (.xorReg 1 2) (regs [(1, 0x3C), (2, 0x0F), (VF, 1)]))
    (fun t => (t.reg 1, t.reg VF)) = some (0x33, 0) := by decide

/-- W5, A9. -/
theorem test_add_reg :
    seen (exec (.addReg 1 2) (regs [(1, 250), (2, 10)])) (fun t => (t.reg 1, t.reg VF)) = some (4, 1) ∧
    seen (exec (.addReg 1 2) (regs [(1, 0x80), (2, 0x7F)])) (fun t => (t.reg 1, t.reg VF)) = some (0xFF, 0) := by decide

/-- A10, A11, A12. -/
theorem test_add_reg_vf :
    seen (exec (.addReg VF 1) (regs [(VF, 200), (1, 100)])) (fun t => t.reg VF) = some 44 ∧
    seen (exec (.addReg 1 VF) (regs [(1, 10), (VF, 250)])) (fun t => (t.reg 1, t.reg VF)) = some (4, 1) ∧
    seen (exec (.addReg VF VF) (regs [(VF, 0x90)])) (fun t => t.reg VF) = some 0x20 := by decide

/-- W7, A13. -/
theorem test_sub :
    seen (exec (.subReg 1 2) (regs [(1, 5), (2, 10)])) (fun t => (t.reg 1, t.reg VF)) = some (251, 0) ∧
    seen (exec (.subReg 1 2) (regs [(1, 7), (2, 7)])) (fun t => (t.reg 1, t.reg VF)) = some (0, 1) := by decide

/-- A14, A15, A16. -/
theorem test_sub_vf :
    seen (exec (.subReg 1 VF) (regs [(1, 10), (VF, 3)])) (fun t => (t.reg 1, t.reg VF)) = some (9, 1) ∧
    seen (exec (.subReg VF 1) (regs [(VF, 5), (1, 10)])) (fun t => t.reg VF) = some 246 ∧
    seen (exec (.subReg VF VF) (regs [(VF, 9)])) (fun t => t.reg VF) = some 0 := by decide

/-- A17, A19. -/
theorem test_shr :
    seen (exec (.shr 1 0) (regs [(1, 5)])) (fun t => (t.reg 1, t.reg VF)) = some (2, 1) ∧
    seen (exec (.shr 1 2) (regs [(1, 4), (2, 0xFF)])) (fun t => (t.reg 1, t.reg VF)) = some (2, 0) := by decide

/-- A20. -/
theorem test_shr_vf : seen (exec (.shr VF 0) (regs [(VF, 3)])) (fun t => t.reg VF) = some 0 := by decide

/-- A21, A22. -/
theorem test_subn :
    seen (exec (.subn 1 2) (regs [(1, 10), (2, 5)])) (fun t => (t.reg 1, t.reg VF)) = some (251, 0) ∧
    seen (exec (.subn 1 2) (regs [(1, 5), (2, 10)])) (fun t => (t.reg 1, t.reg VF)) = some (5, 1) := by decide

/-- A23, A24. -/
theorem test_subn_vf :
    seen (exec (.subn 1 VF) (regs [(1, 5), (VF, 10)])) (fun t => (t.reg 1, t.reg VF)) = some (252, 1) ∧
    seen (exec (.subn VF 1) (regs [(VF, 5), (1, 10)])) (fun t => t.reg VF) = some 9 := by decide

/-- A25, A26. -/
theorem test_shl :
    seen (exec (.shl 1 0) (regs [(1, 0x81)])) (fun t => (t.reg 1, t.reg VF)) = some (2, 1) ∧
    seen (exec (.shl 1 0) (regs [(1, 0x7F)])) (fun t => (t.reg 1, t.reg VF)) = some (0xFE, 0) := by decide

/-- A27, A28. -/
theorem test_shl_vf : seen (exec (.shl VF 0) (regs [(VF, 0x81)])) (fun t => t.reg VF) = some 2 ∧
    seen (exec (.shl VF 0) (regs [(VF, 0x7F)])) (fun t => t.reg VF) = some 0 := by decide

/-- S7, S8. -/
theorem test_sne_reg : seen (exec (.sneReg 1 2) (regs [(1, 7), (2, 8)])) State.pc = some 0x204 ∧
    seen (exec (.sneReg 1 2) (regs [(1, 7), (2, 7)])) State.pc = some 0x202 := by decide

/-- M1. -/
theorem test_ld_i : seen (exec (.ldI 0x300) s0) (fun t => (t.i, t.pc)) = some (0x300, 0x202) := by decide

/-- F8, F9. -/
theorem test_jp_v0 : seen (exec (.jpV0 0x300) (regs [(0, 0x10)])) State.pc = some 0x310 ∧
    seen (exec (.jpV0 0xFFF) (regs [(0, 0xFF)])) State.pc = some 0x10FE := by decide

/-- A29. -/
theorem test_rnd : seen (exec (.rnd 3 0x0F) { s0 with rndInput := some 0xB7 }) (fun t => t.reg 3) = some 7 := by decide

/-- A30: whatever RND is. -/
theorem test_rnd_masked : ∀ b : Byte, seen (exec (.rnd 3 0x00) { s0 with rndInput := some b }) (fun t => t.reg 3) =
    some 0 := by decide

/-- D2, D3, D11: a sprite that leaves the right edge, and one that leaves the bottom. -/
theorem test_drw_wraps :
    seen (exec (.drw 1 2 1) (bytesAt 0x300 [0xFF] { regs [(1, 62)] with i := 0x300 }))
      (fun t => (t.fb, t.reg VF, t.drawFlag, t.pc)) =
      some (pixels [62, 63, 64, 65, 66, 67, 68, 69], 0, true, 0x202) ∧
    seen (exec (.drw 1 2 2) (bytesAt 0x300 [0x80, 0x80] { regs [(2, 31)] with i := 0x300 })) State.fb =
      some (pixels [1984, 0]) ∧
    seen (exec (.drw 1 2 1) (bytesAt 0x300 [0x01] { regs [(1, 63), (2, 31)] with i := 0x300, fb := pixels [2047] }))
      (fun t => (t.fb, t.reg VF)) = some (pixels [2047, 6], 0) := by decide

/-- D5, D6: collision, and VF as a coordinate. D9: the second sprite byte lies outside memory. -/
theorem test_drw_collision_and_bounds :
    seen (exec (.drw 1 2 1) (bytesAt 0x300 [0xC0] { s0 with i := 0x300, fb := pixels [0] }))
      (fun t => (t.fb, t.reg VF)) = some (pixels [1], 1) ∧
    seen (exec (.drw VF 2 1) (bytesAt 0x300 [0x80] { regs [(VF, 5)] with i := 0x300 }))
      (fun t => (t.fb, t.reg VF)) = some (pixels [5], 0) ∧
    seen (exec (.drw 1 2 2) { s0 with i := 0x0FFF }) (fun t => (t.faultRecord, t.pc, t.drawFlag)) =
      some (some ⟨.dataBounds, 0x200, some 0xD122, some 4096⟩, 0x200, false) := by decide

/-- S11, S15. -/
theorem test_skp : seen (exec (.skp 5) (press [7] (regs [(5, 7)]))) State.pc = some 0x204 ∧
    seen (exec (.skp 5) (regs [(5, 16)])) (fun t => (t.faultRecord, t.pc)) =
      some (some ⟨.keyIndex, 0x200, some 0xE59E, some 16⟩, 0x200) := by decide

/-- S14, S16. -/
theorem test_sknp : seen (exec (.sknp 5) (press [7] (regs [(5, 7)]))) State.pc = some 0x202 ∧
    seen (exec (.sknp 5) (regs [(5, 255)])) (fun t => (t.faultRecord, t.pc)) =
      some (some ⟨.keyIndex, 0x200, some 0xE5A1, some 255⟩, 0x200) := by decide

/-- T1, before the tick. -/
theorem test_ld_vx_dt : seen (exec (.ldVxDT 1) { s0 with dt := 2 }) (fun t => (t.reg 1, t.dt)) = some (2, 2) := by decide

/-- T6. -/
theorem test_wait_without_key : seen (exec (.ldVxK 5) s0) id = some s0 := by decide

/-- T7. -/
theorem test_wait_takes_highest_key : seen (exec (.ldVxK 5) (press [3, 7] s0)) (fun t => (t.reg 5, t.pc)) =
    some (7, 0x202) := by decide

/-- T2, before the tick. -/
theorem test_ld_dt : seen (exec (.ldDTVx 0) (regs [(0, 3)])) (fun t => (t.dt, t.pc)) = some (3, 0x202) := by decide

/-- T4, before the tick. -/
theorem test_ld_st : seen (exec (.ldSTVx 0) (regs [(0, 3)])) (fun t => (t.st, t.pc)) = some (3, 0x202) := by decide

/-- M2, M4. -/
theorem test_add_i :
    seen (exec (.addI 1) { regs [(1, 1)] with i := 0x0FFF }) (fun t => (t.i, t.reg VF)) = some (0x1000, 1) ∧
    seen (exec (.addI 1) { regs [(1, 1)] with i := 0xFFFF }) (fun t => (t.i, t.reg VF)) = some (0, 1) := by decide

/-- M5. -/
theorem test_add_i_vf : seen (exec (.addI VF) { regs [(VF, 0x20)] with i := 0x0FF0 }) (fun t => (t.i, t.reg VF)) =
    some (0x0FF1, 1) := by decide

/-- W11, M8. -/
theorem test_ld_f :
    seen (exec (.ldF 1) (regs [(1, 10)])) (fun t => (t.i, t.byteAt 50, t.byteAt 54)) = some (50, 0xF0, 0x90) ∧
    seen (exec (.ldF 1) (regs [(1, 255)])) State.i = some 1275 := by decide

/-- M12. -/
theorem test_ld_b : seen (exec (.ldB 0) { regs [(0, 254)] with i := 0x0FFD })
    (fun t => (t.byteAt 0xFFD, t.byteAt 0xFFE, t.byteAt 0xFFF, t.i)) = some (2, 5, 4, 0x0FFD) := by decide

/-- M13. -/
theorem test_ld_b_bounds : seen (exec (.ldB 0) { s0 with i := 0x0FFE }) (fun t => (t.faultRecord, t.mem)) =
    some (some ⟨.dataBounds, 0x200, some 0xF033, some 4096⟩, s0.mem) := by decide

/-- M14, and the example of R98. -/
theorem test_store_regs :
    seen (exec (.storeRegs 2) { regs [(0, 1), (1, 2), (2, 3)] with i := 0x300 })
      (fun t => (t.byteAt 0x300, t.byteAt 0x301, t.byteAt 0x302, t.i)) = some (1, 2, 3, 0x303) ∧
    seen (exec (.storeRegs 0) { regs [(0, 0xAA)] with i := 0x300 }) (fun t => (t.byteAt 0x300, t.i)) =
      some (0xAA, 0x301) := by decide

/-- M16, M17. -/
theorem test_store_regs_bounds :
    seen (exec (.storeRegs 15) { regs [(0, 9), (VF, 8)] with i := 0x0FF0 })
      (fun t => (t.byteAt 0xFF0, t.byteAt 0xFFF, t.i)) = some (9, 8, 0x1000) ∧
    seen (exec (.storeRegs 15) { regs [(0, 9)] with i := 0x0FF1 }) (fun t => (t.faultRecord, t.mem, t.i)) =
      some (some ⟨.dataBounds, 0x200, some 0xFF55, some 4096⟩, s0.mem, 0x0FF1) := by decide

/-- M18. -/
theorem test_load_regs : seen (exec (.loadRegs 2) (bytesAt 0x300 [2, 5, 4, 9] { s0 with i := 0x300 }))
    (fun t => (t.reg 0, t.reg 1, t.reg 2, t.reg 3, t.i)) = some (2, 5, 4, 0, 0x303) := by decide

/-- M20. -/
theorem test_load_regs_bounds : seen (exec (.loadRegs 0) { s0 with i := 0x2000 }) State.faultRecord =
    some (some ⟨.dataBounds, 0x200, some 0xF065, some 0x2000⟩) := by decide

/-- The codes of R105. -/
theorem test_fault_codes : [Fault.fetchBounds, .dataBounds, .stackOverflow, .stackUnderflow, .keyIndex].map Fault.code =
    [1, 2, 3, 4, 5] := by decide

/-! ## The step and the host's operations -/

/-- P-1: the word at the reset PC is UNKNOWN when nothing is loaded. -/
theorem test_step_unknown : seen (step { s0 with dt := 5 }) (fun t => (t.pc, t.dt, t.events)) =
    some (0x200, 4, [.unknownOpcode 0x200 0]) := by decide

/-- P-3. -/
theorem test_step_fetch_fault :
    seen (step { s0 with pc := 0x0FFF, dt := 5, traceEnable := true }) (fun t => (t.events, t.dt)) =
      some ([.fault ⟨.fetchBounds, 0x0FFF, none, some 4096⟩], 5) := by decide

/-- P-4. -/
theorem test_step_halted :
    seen (step { s0 with dt := 5, phase := .run, faultRecord := some ⟨.stackOverflow, 0x200, some 0x2300, none⟩ })
      (fun t => (t.dt, t.events, t.pc)) = some (5, [], 0x200) := by decide

/-- P-5. -/
theorem test_step_trace : seen (step (word 0x6005 { s0 with traceEnable := true }))
    (fun t => (t.events, t.reg 0, t.pc)) = some ([.trace 0x200 0x6005 0 s0.v], 5, 0x202) := by decide

/-- T4. -/
theorem test_step_alert : seen (step (word 0xF018 { regs [(0, 3)] with soundEnable := true }))
    (fun t => (t.soundActive, t.events, t.st)) = some (true, [.alert], 2) := by decide

/-- F11: the last address a fetch reads from. -/
theorem test_step_last_address : seen (step (word 0x1FFE { s0 with pc := 0x0FFE })) State.pc = some 0x0FFE := by decide

/-- H-1, H-2, H-3, H-4, H-8. -/
theorem test_host_accesses :
    hostOp (.setKey 16 1) s0 = (s0, .refused) ∧ hostOp (.setKey 3 2) s0 = (s0, .refused) ∧
    hostOp (.readPixel 2048) s0 = (s0, .refused) ∧
    hostOp .readDrawFlag (hostOp .clearDrawFlag { s0 with drawFlag := true }).1 = (s0, .bit false) ∧
    (hostOp .readFault { s0 with faultRecord := some ⟨.stackOverflow, 0x200, some 0x2300, none⟩ }).2 =
      .faultRecord (some ⟨.stackOverflow, 0x200, some 0x2300, none⟩) := by decide

/-- W3, H-7. -/
theorem test_load_rom :
    ((loadRom [0x60, 0x05] s0).1.byteAt 512, (loadRom [0x60, 0x05] s0).1.byteAt 513, (loadRom [0x60, 0x05] s0).2) =
      (0x60, 0x05, .loadSuccess) ∧
    loadRom [0x60, 0x05] { s0 with phase := .run } = ({ s0 with phase := .run }, .refused) := by decide

/-- P-6. -/
theorem test_host_reset :
    hostReset { s0 with faultRecord := some ⟨.stackOverflow, 0x200, some 0x2300, none⟩, phase := .run, dt := 5 } = s0 := by
  decide

/-- R40: the glyph of A in the suggested FONT. -/
theorem test_suggested_font :
    [s0.byteAt 50, s0.byteAt 51, s0.byteAt 52, s0.byteAt 53, s0.byteAt 54] = [0xF0, 0x90, 0xF0, 0x90, 0x90] ∧
    s0.byteAt 79 = 0x80 ∧ s0.byteAt 80 = 0 := by decide

/-! ## Witnesses: states and operands that meet the hypotheses of each statement that has some -/

/-- The block right after a 17th call (R71): halted. -/
def halted0 : State := { s0 with phase := .run, faultRecord := some ⟨.stackOverflow, 0x200, some 0x2300, none⟩ }

/-- A state of load phase BOOT is running. -/
theorem running_of_boot {s : State} (h : s.halted = false) (hp : s.phase = .boot) : s.running :=
  ⟨h, by rw [hp]; decide⟩

theorem witness_ResetLeavesTheListedState :
    (∃ s, s = State.resetWith (some suggestedFont)) ∧ s0.byteAt 79 = suggestedFont[79] ∧ s0.byteAt 80 = 0 ∧
    s0.byteAt 4095 = 0 ∧ s0.pixel 2047 = false ∧ s0.keyDown 15 = false := by
  refine ⟨⟨_, rfl⟩, ?_⟩; decide

/-- A state that meets the invariant and whose step is a call; one that is halted. -/
theorem witness_StepKeepsTheInvariant :
    (∃ t, (word 0x2300 s0).Inv ∧ step (word 0x2300 s0) = .next t) ∧ ∃ t, halted0.Inv ∧ step halted0 = .next t := by
  refine ⟨⟨_, ⟨by decide, by decide, by decide, fun r h => ?_, by decide⟩, rfl⟩,
    _, ⟨by decide, by decide, by decide, fun r h => ?_, fun _ => ⟨rfl, rfl⟩⟩, rfl⟩
  · have hn : (none : Option FaultRecord) = some r := h
    cases hn
  · obtain rfl := Option.some.inj h
    exact ⟨rfl, by decide, rfl⟩

theorem witness_EncodeInvertsDecode : decode 0x8126 = some (.shr 1 2) ∧ decode 0xFF65 = some (.loadRegs 15) := by decide

theorem witness_AssemblerLineRoundTrip : decode 0x5121 = none := by decide

/-- At 0x0FFE, the last PC that fetches, with the trace on. -/
theorem witness_StepRunsTheDecodedInstruction : ∃ s t : State, s.running ∧ s.pc.toNat ≤ 4094 ∧
    decode s.wordAtPc = some (.ldImm 0 5) ∧ exec (.ldImm 0 5) { s with
      soundActive := false
      events := if s.traceEnable then [.trace s.pc s.wordAtPc s.sp s.v] else []
      phase := .run } = .next t :=
  ⟨word 0x6005 { s0 with pc := 0x0FFE, traceEnable := true }, _, running_of_boot (by decide) rfl, by decide, by decide,
    rfl⟩

/-- For the one step and for any number. -/
theorem witness_UnknownWord :
    s0.running ∧ s0.pc.toNat ≤ 4094 ∧ decode s0.wordAtPc = none :=
  ⟨running_of_boot (by decide) rfl, by decide, by decide⟩

theorem witness_HaltedBlockStaysUntilReset :
    halted0.halted = true ∧ halted0.phase ≠ .poisoned ∧ HostOp.loadRom [] ≠ .reset := by decide

/-- The fetch at 4095, and a call at 4094 with a full stack. -/
theorem witness_FaultingStepIsPrecise :
    (({ s0 with pc := 0x0FFF } : State).running ∧ 4094 < ({ s0 with pc := 0x0FFF } : State).pc.toNat) ∧
    ((word 0x2300 { s0 with pc := 0x0FFE, sp := 16 }).running ∧
      (word 0x2300 { s0 with pc := 0x0FFE, sp := 16 }).pc.toNat ≤ 4094 ∧
      decode (word 0x2300 { s0 with pc := 0x0FFE, sp := 16 }).wordAtPc = some (.call 0x300) ∧
      faultOf (.call 0x300) (word 0x2300 { s0 with pc := 0x0FFE, sp := 16 }) = some (.stackOverflow, none)) :=
  ⟨⟨running_of_boot (by decide) rfl, by decide⟩, running_of_boot (by decide) rfl, by decide, by decide, by decide⟩

theorem witness_StepAnswersNextUnlessPoisoned :
    ({ s0 with phase := .poisoned } : State).phase = .poisoned ∧ s0.phase ≠ .poisoned := by decide

/-- Every line of the list, on both sides of its bound. -/
theorem witness_FaultListIsComplete :
    s0.halted = false ∧ faultOf .ret s0 = some (.stackUnderflow, none) ∧ faultOf .ret { s0 with sp := 1 } = none ∧
    faultOf (.call 0) { s0 with sp := 16 } = some (.stackOverflow, none) ∧
    faultOf (.call 0) { s0 with sp := 15 } = none ∧
    faultOf (.skp 1) (regs [(1, 16)]) = some (.keyIndex, some 16) ∧ faultOf (.skp 1) (regs [(1, 15)]) = none ∧
    faultOf (.sknp 1) (regs [(1, 255)]) = some (.keyIndex, some 255) ∧ faultOf (.sknp 1) (regs [(1, 15)]) = none := by
  decide

theorem witness_FaultListIsComplete_memory :
    faultOf (.drw 0 0 2) { s0 with i := 4095 } = some (.dataBounds, some 4096) ∧
    faultOf (.drw 0 0 1) { s0 with i := 4095 } = none ∧ faultOf (.drw 0 0 0) { s0 with i := 0xFFFF } = none ∧
    faultOf (.ldB 0) { s0 with i := 4094 } = some (.dataBounds, some 4096) ∧
    faultOf (.ldB 0) { s0 with i := 4093 } = none ∧
    faultOf (.storeRegs 15) { s0 with i := 4081 } = some (.dataBounds, some 4096) ∧
    faultOf (.storeRegs 15) { s0 with i := 4080 } = none ∧
    faultOf (.loadRegs 0) { s0 with i := 0x2000 } = some (.dataBounds, some 0x2000) ∧
    faultOf (.loadRegs 0) { s0 with i := 4095 } = none ∧ faultOf .cls s0 = none := by decide

theorem witness_TimersCountDownOncePerStep :
    ∃ t, (word 0x00E0 s0).running ∧ step (word 0x00E0 s0) = .next t ∧ t.halted = false ∧
      (∀ x, decode (word 0x00E0 s0).wordAtPc ≠ some (.ldDTVx x)) ∧
      ∀ x, decode (word 0x00E0 s0).wordAtPc ≠ some (.ldSTVx x) :=
  ⟨_, running_of_boot (by decide) rfl, rfl, by decide, by decide, by decide⟩

theorem witness_TimerInstructionsAreTickedInTheirStep :
    ((word 0xF107 s0).running ∧ (word 0xF107 s0).pc.toNat ≤ 4094 ∧
      decode (word 0xF107 s0).wordAtPc = some (.ldVxDT 1)) ∧
    ((word 0xF015 s0).running ∧ (word 0xF015 s0).pc.toNat ≤ 4094 ∧
      decode (word 0xF015 s0).wordAtPc = some (.ldDTVx 0)) ∧
    ((word 0xFF18 s0).running ∧ (word 0xFF18 s0).pc.toNat ≤ 4094 ∧
      decode (word 0xFF18 s0).wordAtPc = some (.ldSTVx 15)) :=
  ⟨⟨running_of_boot (by decide) rfl, by decide, by decide⟩, ⟨running_of_boot (by decide) rfl, by decide, by decide⟩,
    running_of_boot (by decide) rfl, by decide, by decide⟩

theorem witness_SelfJumpOnlyTicks :
    (word 0x1FFE { s0 with pc := 0x0FFE }).running ∧ (word 0x1FFE { s0 with pc := 0x0FFE }).pc.toNat ≤ 4094 ∧
    (0xFFE : Addr).toNat = (word 0x1FFE { s0 with pc := 0x0FFE }).pc.toNat ∧
    decode (word 0x1FFE { s0 with pc := 0x0FFE }).wordAtPc = some (.jp 0xFFE) :=
  ⟨running_of_boot (by decide) rfl, by decide, by decide, by decide⟩

/-- The last block of 16 bytes, its last word; and the last three bytes. -/
theorem witness_StoredBytesAreFetched :
    (({ s0 with i := 4080 } : State).mem.wf ∧ ({ s0 with i := 4080 } : State).i.toNat + (15 : RegIx).toNat ≤ 4095 ∧
      14 + 1 ≤ (15 : RegIx).toNat ∧ (4094 : Word).toNat = ({ s0 with i := 4080 } : State).i.toNat + 14) ∧
    ({ s0 with i := 4093 } : State).mem.wf ∧ ({ s0 with i := 4093 } : State).i.toNat + 2 ≤ 4095 := by decide

/-- A word that matches each row (`rowDecodes`, in the statements about the instructions): (word, mask, bits). -/
theorem witness_rowDecodes : ([
     (0x00E0, 0xFFFF, 0x00E0), (0x00EE, 0xFFFF, 0x00EE),
     (0x1208, 0xF000, 0x1000), (0x2FED, 0xF000, 0x2000),
     (0x3A42, 0xF000, 0x3000), (0x4A42, 0xF000, 0x4000),
     (0x5120, 0xF00F, 0x5000), (0x6A2B, 0xF000, 0x6000),
     (0x7A2B, 0xF000, 0x7000), (0x8120, 0xF00F, 0x8000),
     (0x8121, 0xF00F, 0x8001), (0x8122, 0xF00F, 0x8002),
     (0x8123, 0xF00F, 0x8003), (0x8124, 0xF00F, 0x8004),
     (0x8125, 0xF00F, 0x8005), (0x8126, 0xF00F, 0x8006),
     (0x8127, 0xF00F, 0x8007), (0x812E, 0xF00F, 0x800E),
     (0x9120, 0xF00F, 0x9000), (0xA300, 0xF000, 0xA000),
     (0xB300, 0xF000, 0xB000), (0xC30F, 0xF000, 0xC000),
     (0xD12F, 0xF000, 0xD000), (0xE59E, 0xF0FF, 0xE09E),
     (0xE5A1, 0xF0FF, 0xE0A1), (0xF107, 0xF0FF, 0xF007),
     (0xF10A, 0xF0FF, 0xF00A), (0xF115, 0xF0FF, 0xF015),
     (0xF118, 0xF0FF, 0xF018), (0xF11E, 0xF0FF, 0xF01E),
     (0xF129, 0xF0FF, 0xF029), (0xF133, 0xF0FF, 0xF033),
     (0xF155, 0xF0FF, 0xF055), (0xF165, 0xF0FF, 0xF065)] : List (Word × Word × Word)).all (fun r => r.1 &&& r.2.1 == r.2.2) = true := by decide

theorem witness_Subtract :
    (∃ f : Byte, f = (if ((regs [(1, 5)]).reg 1).toNat < ((regs [(1, 5)]).reg 2).toNat then 0 else 1)) ∧
    ∃ f : Byte, f = (if ((regs [(1, 5)]).reg 1).toNat > ((regs [(1, 5)]).reg 2).toNat then 0 else 1) :=
  ⟨⟨_, rfl⟩, _, rfl⟩

theorem witness_RandomByteIsMasked : ∃ b, ({ s0 with rndInput := some 0xB7 } : State).rndInput = some b := ⟨_, rfl⟩

theorem witness_KeySkipsMovePcOrFault :
    ((regs [(1, 15)]).reg 1).toNat ≤ 15 ∧ 15 < ((regs [(1, 16)]).reg 1).toNat := by decide

theorem witness_CallPushesItsOwnAddress :
    ({ s0 with sp := 15 } : State).sp.val < 16 ∧ ({ s0 with sp := 16 } : State).sp.val = 16 := by decide

theorem witness_ReturnGoesAfterTheCall :
    ({ s0 with sp := 16 } : State).sp.val = 15 + 1 ∧ ({ s0 with sp := 1 } : State).sp.val = 0 + 1 ∧
    s0.sp.val = 0 := by decide

theorem witness_ReturnUndoesTheCall :
    ∃ t, ({ s0 with sp := 15 } : State).sp.val < 16 ∧ exec (.call 0x300) { s0 with sp := 15 } = .next t ∧
      (t.setReg 3 7).sp = t.sp ∧ (t.setReg 3 7).stack = t.stack := ⟨_, by decide, rfl, rfl, rfl⟩

theorem witness_IndexAddWritesRangeFlag :
    ∃ f : Byte, f = (if ({ regs [(1, 1)] with i := 4095 } : State).i.toNat + ((regs [(1, 1)]).reg 1).toNat > 4095
      then 1 else 0) := ⟨_, rfl⟩

theorem witness_DecimalDigitsAreStored :
    (bytesAt 0 [1] { s0 with i := 4093 }).mem.wf ∧ (bytesAt 0 [1] { s0 with i := 4093 }).i.toNat + 2 ≤ 4095 ∧
    (bytesAt 0 [1] { s0 with i := 4094 }).mem.wf ∧ 4095 < (bytesAt 0 [1] { s0 with i := 4094 }).i.toNat + 2 := by decide

/-- For FX55 and FX65 alike: X = 0 and X = F at the last address that fits and at the first that does not. -/
theorem witness_RegisterBlock : ∀ i x, (i, x) ∈ [((4095 : Word), (0 : RegIx)), (4080, 15)] →
    (bytesAt 4095 [1] { s0 with i := i }).mem.wf ∧ (bytesAt 4095 [1] { s0 with i := i }).i.toNat + x.toNat ≤ 4095 ∧
    (bytesAt 4095 [1] { s0 with i := i + 1 }).mem.wf ∧
    4095 < (bytesAt 4095 [1] { s0 with i := i + 1 }).i.toNat + x.toNat := by
  intro i x h
  simp only [List.mem_cons, List.not_mem_nil, or_false, Prod.mk.injEq] at h
  rcases h with ⟨rfl, rfl⟩ | ⟨rfl, rfl⟩ <;> decide

theorem witness_LoadAfterStoreRestoresRegisters :
    ∃ t, ({ s0 with i := 4080 } : State).mem.wf ∧ ({ s0 with i := 4080 } : State).i.toNat + (15 : RegIx).toNat ≤ 4095 ∧
      exec (.storeRegs 15) { s0 with i := 4080 } = .next t ∧ ({ t with i := 4080 } : State).mem = t.mem ∧
      ({ t with i := 4080 } : State).i = ({ s0 with i := 4080 } : State).i := ⟨_, by decide, by decide, rfl, rfl, rfl⟩

/-- The highest key, the lowest alone, and none. -/
theorem witness_KeyWaitTakesTheHighestKey :
    ((press [3, 15] s0).keyDown 15 = true ∧ ∀ j, 15 < j → j < 16 → (press [3, 15] s0).keyDown j = false) ∧
    ((press [0] s0).keyDown 0 = true ∧ ∀ j, j < 16 → 0 < j → (press [0] s0).keyDown j = false) ∧
    ∀ k, k < 16 → s0.keyDown k = false := by
  refine ⟨⟨by decide, fun j h h' => by omega⟩, ⟨by decide, by decide⟩, by decide⟩

theorem witness_KeyWaitOnlyTicks :
    (word 0xF50A s0).running ∧ (word 0xF50A s0).pc.toNat ≤ 4094 ∧
    decode (word 0xF50A s0).wordAtPc = some (.ldVxK 5) ∧ ∀ k, k < 16 → (word 0xF50A s0).keyDown k = false :=
  ⟨running_of_boot (by decide) rfl, by decide, by decide, by decide⟩

/-- No row with I = 65535; one row at 4095; two rows at 4095. -/
theorem witness_DrawInvertsTheSpritesPixels :
    (0 : Nibble).toNat = 0 ∧ ({ s0 with i := 4095 } : State).i.toNat + (1 : Nibble).toNat - 1 ≤ 4095 ∧
    (2 : Nibble).toNat ≠ 0 ∧ 4095 < ({ s0 with i := 4095 } : State).i.toNat + (2 : Nibble).toNat - 1 := by decide

/-- The glyph of A, drawn on a clear screen. -/
theorem witness_DrawTwiceRestoresTheScreen :
    ∃ t, (1 : RegIx) ≠ VF ∧ (2 : RegIx) ≠ VF ∧ exec (.drw 1 2 5) { s0 with i := 50 } = .next t ∧ t.halted = false ∧
      ({ s0 with i := 50 } : State).halted = false ∧ (∀ k, k < 2048 → ({ s0 with i := 50 } : State).pixel k = false) ∧
      ∃ k, k < 2048 ∧ ({ s0 with i := 50 } : State).spriteHas 0 0 5 k :=
  ⟨_, by decide, by decide, rfl, by decide, by decide, fun k _ => pixelOf_blank k,
    0, by decide, 0, by decide, 0, by decide, by decide, rfl⟩

/-- For the statements on what no instruction does: a call, a store, a draw and a copy that answer next states. -/
theorem witness_Frames :
    (∃ t, exec (.ldReg 1 2) s0 = .next t ∧ ¬ mayWriteReg (.ldReg 1 2) 3 ∧ (∀ nnn, Instr.ldReg 1 2 ≠ .call nnn) ∧
      (∀ x, Instr.ldReg 1 2 ≠ .ldB x) ∧ (∀ x, Instr.ldReg 1 2 ≠ .storeRegs x) ∧ ¬ writesI (.ldReg 1 2) ∧
      (∀ x, Instr.ldReg 1 2 ≠ .ldDTVx x) ∧ (∀ x, Instr.ldReg 1 2 ≠ .ldSTVx x) ∧
      Instr.ldReg 1 2 ≠ .cls ∧ ∀ x y n, Instr.ldReg 1 2 ≠ .drw x y n) ∧
    ∃ t, exec (.drw 1 2 5) s0 = .next t ∧ s0.halted = false ∧ t.halted = false := by
  refine ⟨⟨_, rfl, ?_, ?_, ?_, ?_, id, ?_, ?_, ?_, ?_⟩, _, rfl, by decide, by decide⟩
  · show ¬ (3 : RegIx) = 1
    decide
  all_goals intros; exact Instr.noConfusion

theorem witness_StepInputs : ∃ t, step (word 0xF018 (regs [(0, 3)])) = .next t := ⟨_, rfl⟩

/-- An image of 3584 bytes, one of 3585, and a block that has taken a step. -/
theorem witness_LoadRomPlacesTheImage :
    (s0.mem.wf ∧ s0.phase = .boot ∧ (List.replicate 3584 (0x60 : Byte)).length ≤ 3584 ∧
      3584 < (List.replicate 3585 (0x60 : Byte)).length ∧ halted0.mem.wf ∧ halted0.phase ≠ .boot) ∧
    ∃ t, s0.phase = .boot ∧ s0.halted = false ∧ step s0 = .next t := by
  refine ⟨⟨by decide, rfl, by rw [List.length_replicate], by rw [List.length_replicate]; decide, by decide,
    by decide⟩, _, rfl, by decide, rfl⟩

theorem witness_HostAccessesAreAsListed :
    ((15 : Nat) < 16 ∧ (1 : Nat) < 2) ∧ (15 < 16 ∨ 1 < 0) ∧ (15 < 0 ∨ 1 < 2) ∧ (2047 : Nat) < 2048 ∧
    (2047 : Nat) < 2048 := by decide

end Sys2Proof.Tests
end

section
/-! What a halted block's step does (spec/30_encoding.md R65), and what each host operation does to the fault record
(spec/60_exceptions.md R121). -/

namespace Sys2Proof.Machine

/-! ## The step of a halted block -/

theorem step_of_halted {s : State} (hp : s.phase ≠ .poisoned) (hh : s.halted = true) :
    step s = .next (idleStep s) := by
  unfold step
  rw [if_neg hp, if_pos hh]

/-- Whatever a step of a halted block answers, the fault record is the one it had. -/
theorem step_keeps_faultRecord_of_halted {s t : State} (hh : s.halted = true) (h : step s = .next t) :
    t.faultRecord = s.faultRecord := by
  have hp : s.phase ≠ .poisoned := (step_cases h).1
  obtain rfl : idleStep s = t := Host.Outcome.next.inj ((step_of_halted hp hh).symm.trans h)
  exact idleStep_faultRecord s

/-! ## The fault record under the host's operations -/

@[simp] theorem presentInputs_faultRecord (s : State) (t snd : Bool) (r : Option Byte) :
    (presentInputs s t snd r).faultRecord = s.faultRecord := rfl

@[simp] theorem presentInputs_halted (s : State) (t snd : Bool) (r : Option Byte) :
    (presentInputs s t snd r).halted = s.halted := rfl

@[simp] theorem hostReset_halted (s : State) : (hostReset s).halted = false := rfl

@[simp] theorem loadRom_faultRecord (bytes : List Byte) (s : State) :
    (loadRom bytes s).1.faultRecord = s.faultRecord := by
  by_cases hp : s.phase = .boot
  · by_cases hl : bytes.length ≤ 3584
    · rw [loadRom_of_fits hp hl]
    · obtain ⟨image, h⟩ := loadRom_of_tooLong hp (Nat.lt_of_not_le hl)
      rw [h]
  · rw [loadRom_of_notBoot bytes hp]

@[simp] theorem setKey_faultRecord (k v : Nat) (s : State) : (setKey k v s).1.faultRecord = s.faultRecord := by
  unfold setKey
  split <;> rfl

/-- Step asked for by the host on a halted block: answered or refused, it keeps the record. -/
theorem hostOp_step_keeps_faultRecord_of_halted {s : State} (hh : s.halted = true) (t snd : Bool) (r : Byte) :
    (hostOp (.step t snd r) s).1.faultRecord = s.faultRecord := by
  have hin : (presentInputs s t snd (some r)).halted = true := (presentInputs_halted s t snd _).trans hh
  simp only [hostOp]
  cases h : hostStep t snd r s with
  | next u => exact (step_keeps_faultRecord_of_halted hin h).trans (presentInputs_faultRecord s t snd _)
  | fault _ => rfl
  | refused _ => rfl

/-- Only Reset can end the halted state: every other operation keeps a halted block's record. -/
theorem hostOp_keeps_faultRecord_of_halted {s : State} (hh : s.halted = true) {o : HostOp} (ho : o ≠ .reset) :
    (hostOp o s).1.faultRecord = s.faultRecord := by
  cases o with
  | step t snd r => exact hostOp_step_keeps_faultRecord_of_halted hh t snd r
  | reset => exact absurd rfl ho
  | loadRom bytes => exact loadRom_faultRecord bytes s
  | setKey k v => exact setKey_faultRecord k v s
  | readPixel | readDrawFlag | clearDrawFlag | readFault => rfl

/-- Settles O13: the step by R65's branch of `step`, the host operations one by one, Reset by R34's record. -/
theorem haltedBlockStaysUntilReset : Obligations.HaltedBlockStaysUntilReset := by
  intro s hh
  exact ⟨fun hp => step_of_halted hp hh, fun _ ho => hostOp_keeps_faultRecord_of_halted hh ho, hostReset_halted s⟩

end Sys2Proof.Machine
end

section
/-! The display instructions (spec/41_display.md): what 00E0 and DXYN do to the pixels and to VF, and that they leave all
else (R67, R68). -/

namespace Sys2Proof.Machine

@[simp] theorem State.setDisplay_pixel (s : State) (fb : Framebuffer) (k : Nat) :
    (s.setDisplay fb).pixel k = pixelOf fb k := rfl

/-! ## 00E0 -/

theorem rowDecodes_cls : rowDecodes 0x00E0 0xFFFF (fun _ => .cls) := by
  intro w hw
  obtain rfl : w = 0x00E0#16 := (BitVec.and_allOnes (x := w)).symm.trans hw
  rfl

theorem exec_cls (s : State) : exec .cls s = .next (s.setDisplay blankDisplay).advance := rfl

/-- Settles O44: the answer is the state with a blank display, one instruction further. -/
theorem clearScreenClearsEveryPixel : Obligations.ClearScreenClearsEveryPixel :=
  ⟨rowDecodes_cls, fun s =>
    ⟨(s.setDisplay blankDisplay).advance, exec_cls s, fun k _ => by simp, rfl, rfl, fun _ => rfl⟩⟩

/-! ## DXYN: the answer -/

theorem rowDecodes_drw : rowDecodes 0xD000 0xF000 (fun w => .drw (opX w) (opY w) (opN w)) := by
  intro w hw
  have hfam : opFam w = 0xD#4 := (opFam_of_F000 hw).trans (by decide)
  simp [decode, hfam]

/-- The framebuffer after DXYN's sprite is drawn, and whether it collided. -/
def State.drawCanvas (s : State) (x y : RegIx) (n : Nibble) : Canvas :=
  drawSprite s.mem s.i.toNat (s.reg x).toNat (s.reg y).toNat n.toNat s.fb

/-- The state a DXYN answers when its bytes lie in memory (R68). -/
def State.drawn (s : State) (x y : RegIx) (n : Nibble) : State :=
  ((s.setReg VF (flag (s.drawCanvas x y n).hit)).setDisplay (s.drawCanvas x y n).fb).advance

theorem exec_drw (s : State) (x y : RegIx) (n : Nibble) :
    exec (.drw x y n) s = withBytesAtI (.drw x y n) n.toNat s (s.drawn x y n) := rfl

theorem exec_drw_of_fits {s : State} {n : Nibble} (x y : RegIx) (h : n.toNat = 0 ∨ s.i.toNat + n.toNat - 1 ≤ 4095) :
    exec (.drw x y n) s = .next (s.drawn x y n) := by
  have hin : inMemory s.i.toNat n.toNat = true := (inMemory_iff _ _).2 (by omega)
  rw [exec_drw, withBytesAtI, if_pos hin]

theorem exec_drw_of_outside {s : State} {n : Nibble} (x y : RegIx) (hn : n.toNat ≠ 0)
    (h : 4095 < s.i.toNat + n.toNat - 1) : exec (.drw x y n) s =
      .next (s.faulted .dataBounds (some (encode (.drw x y n))) (some (max s.i.toNat 4096))) := by
  have hout : inMemory s.i.toNat n.toNat = false := (not_inMemory_iff _ _).2 ⟨by omega, h⟩
  rw [exec_drw, withBytesAtI, if_neg (by simp [hout])]
  rfl

/-! ## DXYN: the pixels and VF -/

/-- The engine's list of pixels holds those of the sprite at I. -/
theorem mem_spritePixels_iff_spriteHas (s : State) (x0 y0 n k : Nat) :
    k ∈ spritePixels s.mem s.i.toNat x0 y0 n ↔ s.spriteHas x0 y0 n k := mem_spritePixels

theorem State.spriteHas_lt {s : State} {x0 y0 n k : Nat} (h : s.spriteHas x0 y0 n k) : k < 2048 := by
  obtain ⟨row, _, col, _, _, rfl⟩ := h
  exact pixelIndex_lt x0 y0 row col

section
variable (s : State) (x y : RegIx) (n : Nibble)

theorem drawn_pixel (k : Nat) : (s.drawn x y n).pixel k =
    (s.pixel k ^^ decide (k ∈ spritePixels s.mem s.i.toNat (s.reg x).toNat (s.reg y).toNat n.toNat)) := by
  rw [State.drawn, State.advance_pixel, State.setDisplay_pixel]
  exact drawSprite_pixel _ _ _ _ (by omega) _ k

/-- A draw changes exactly the sprite's pixels. -/
theorem drawn_pixel_ne_iff (k : Nat) : (s.drawn x y n).pixel k ≠ s.pixel k ↔
    s.spriteHas (s.reg x).toNat (s.reg y).toNat n.toNat k := by
  rw [drawn_pixel, ← mem_spritePixels_iff_spriteHas]
  cases s.pixel k <;> simp

/-- The engine's hit is a set pixel that the draw cleared. -/
theorem drawCanvas_hit_iff : (s.drawCanvas x y n).hit = true ↔
    ∃ k, k < 2048 ∧ s.pixel k = true ∧ (s.drawn x y n).pixel k = false := by
  rw [State.drawCanvas, drawSprite_hit _ _ _ _ (by omega)]
  refine exists_congr fun k => ?_
  rw [mem_spritePixels_iff_spriteHas]
  constructor
  · rintro ⟨hk, hset⟩
    have hne := (drawn_pixel_ne_iff s x y n k).2 hk
    exact ⟨State.spriteHas_lt hk, hset, by simpa [State.pixel, hset] using hne⟩
  · rintro ⟨-, hset, hclear⟩
    exact ⟨(drawn_pixel_ne_iff s x y n k).1 (by simp [hset, hclear]), hset⟩

@[simp] theorem drawn_reg_VF : (s.drawn x y n).reg VF = flag (s.drawCanvas x y n).hit :=
  State.reg_setReg_same s VF _

theorem drawn_reg_other {r : RegIx} (h : r ≠ VF) : (s.drawn x y n).reg r = s.reg r :=
  State.reg_setReg_other s _ h

/-- VF is 1 when a set pixel was cleared, and 0 when every set pixel stayed set. -/
theorem drawn_collision :
    ((s.drawn x y n).reg VF = 1 ∧ ∃ k, k < 2048 ∧ s.pixel k = true ∧ (s.drawn x y n).pixel k = false) ∨
    ((s.drawn x y n).reg VF = 0 ∧ ∀ k, k < 2048 → s.pixel k = true → (s.drawn x y n).pixel k = true) := by
  have hiff := drawCanvas_hit_iff s x y n
  rw [drawn_reg_VF, flag_eq_one_iff, flag_eq_zero_iff]
  cases hhit : (s.drawCanvas x y n).hit with
  | true => exact .inl ⟨rfl, hiff.1 hhit⟩
  | false =>
    refine .inr ⟨rfl, fun k hk hset => ?_⟩
    by_contra hclear
    rw [hiff.2 ⟨k, hk, hset, by simpa using hclear⟩] at hhit
    exact Bool.noConfusion hhit

/-- A draw writes V, the framebuffer, draw_flag and PC alone. -/
theorem drawn_frame : s.drawn x y n = { s with
    v := (s.drawn x y n).v, fb := (s.drawn x y n).fb, drawFlag := (s.drawn x y n).drawFlag, pc := s.pc + 2 } := rfl

end

/-- Settles O45: a draw toggles no pixel twice, so it inverts exactly the sprite's pixels, and its hit is a pixel cleared. -/
theorem drawInvertsTheSpritesPixels : Obligations.DrawInvertsTheSpritesPixels := by
  refine ⟨rowDecodes_drw, fun s x y n => ⟨fun hfits => ?_, exec_drw_of_outside x y⟩⟩
  exact ⟨s.drawn x y n, exec_drw_of_fits x y hfits, fun k _ => drawn_pixel_ne_iff s x y n k, drawn_collision s x y n,
    fun _ => drawn_reg_other s x y n, rfl, drawn_frame s x y n, fun _ => rfl⟩

end Sys2Proof.Machine
end

section
/-! The control transfers (spec/42_flow.md): where 1NNN, BNNN, 2NNN and 00EE go on, what they do to the stack, and the
two faults of the stack (R69 to R72). -/

namespace Sys2Proof.Machine

/-! ## Encoding -/

/-- A row whose pattern fixes only op[15:12] is decided by the family. -/
theorem rowDecodes_of_family {b : Word} {f : Word → Instr} {fam : Nibble} (hb : opFam b = fam)
    (h : ∀ w, opFam w = fam → decode w = some (f w)) : rowDecodes b 0xF000 f :=
  fun w hw => h w ((opFam_of_F000 hw).trans hb)

/-- A row whose pattern fixes every bit has one word. -/
theorem rowDecodes_of_word {b : Word} {i : Instr} (h : decode b = some i) : rowDecodes b 0xFFFF (fun _ => i) := by
  intro w hw
  obtain rfl : w = b := (BitVec.and_allOnes (x := w)).symm.trans hw
  exact h

theorem rowDecodes_jp : rowDecodes 0x1000 0xF000 (fun w => .jp (opNNN w)) :=
  rowDecodes_of_family (fam := 0x1#4) (by decide) fun w hfam => by simp [decode, hfam]

theorem rowDecodes_call : rowDecodes 0x2000 0xF000 (fun w => .call (opNNN w)) :=
  rowDecodes_of_family (fam := 0x2#4) (by decide) fun w hfam => by simp [decode, hfam]

theorem rowDecodes_jpV0 : rowDecodes 0xB000 0xF000 (fun w => .jpV0 (opNNN w)) :=
  rowDecodes_of_family (fam := 0xB#4) (by decide) fun w hfam => by simp [decode, hfam]

theorem rowDecodes_ret : rowDecodes 0x00EE 0xFFFF (fun _ => .ret) := rowDecodes_of_word rfl

/-! ## The answers -/

theorem exec_jp (s : State) (nnn : Addr) : exec (.jp nnn) s = .next (s.setPc (addrOperand nnn)) := rfl

theorem exec_jpV0 (s : State) (nnn : Addr) : exec (.jpV0 nnn) s = .next (s.setPc (indexedTarget s nnn)) := rfl

theorem exec_call_of_lt {s : State} (nnn : Addr) (h : s.sp.val < 16) :
    exec (.call nnn) s = .next ((s.push s.pc h).setPc (addrOperand nnn)) := dif_pos h

theorem exec_call_of_full {s : State} (nnn : Addr) (h : s.sp.val = 16) :
    exec (.call nnn) s = .next (s.faulted .stackOverflow (some (encode (.call nnn))) none) :=
  dif_neg (by omega : ¬ s.sp.val < 16)

theorem exec_ret_of_succ {s : State} {j : Nat} (hj : j < 16) (h : s.sp.val = j + 1) :
    exec .ret s = .next (s.pop.setPc s.stack[j]).advance := by
  have hne : s.sp.val ≠ 0 := by omega
  have htop : s.top hne = s.stack[j] := by simp [State.top, h]
  rw [← htop]
  exact dif_neg hne

theorem exec_ret_of_empty {s : State} (h : s.sp.val = 0) :
    exec .ret s = .next (s.faulted .stackUnderflow (some 0x00EE) none) := dif_pos h

/-! ## The stack -/

/-- After a push, the entry at the old SP is the word pushed and the others are as before. -/
theorem State.push_stack_getElem (s : State) (w : Word) (h : s.sp.val < 16) {j : Nat} (hj : j < 16) :
    (s.push w h).stack[j] = if j = s.sp.val then w else s.stack[j] := by
  simp only [State.push_stack, Vector.getElem_set, eq_comm]

theorem State.pop_sp_of_succ {s : State} {j : Nat} (h : s.sp.val = j + 1) : s.pop.sp.val = j := by
  simp [h]

/-! ## The statements -/

/-- Settles O30: both jumps only write PC, and neither target needs more than 16 bits. -/
theorem jumpsSetPc : Obligations.JumpsSetPc := by
  refine ⟨rowDecodes_jp, rowDecodes_jpV0, fun s nnn => ⟨?_, ?_⟩⟩
  · exact ⟨s.setPc (addrOperand nnn), exec_jp s nnn, addrOperand_toNat nnn, rfl, fun _ => rfl⟩
  · exact ⟨s.setPc (indexedTarget s nnn), exec_jpV0 s nnn, indexedTarget_toNat s nnn, rfl, fun _ => rfl⟩

/-- Settles O31: with a free entry the call pushes PC and jumps; without one it takes the fault. -/
theorem callPushesItsOwnAddress : Obligations.CallPushesItsOwnAddress := by
  refine ⟨rowDecodes_call, fun s nnn => ⟨fun hfree => ?_, exec_call_of_full nnn⟩⟩
  exact ⟨(s.push s.pc hfree).setPc (addrOperand nnn), exec_call_of_lt nnn hfree, addrOperand_toNat nnn, rfl,
    fun _ hj => s.push_stack_getElem s.pc hfree hj, rfl, fun _ => rfl⟩

/-- Settles O32: with an occupied entry the return goes two past the top one; without one it takes the fault. -/
theorem returnGoesAfterTheCall : Obligations.ReturnGoesAfterTheCall := by
  refine ⟨rowDecodes_ret, fun s => ⟨fun j hj hsp => ?_, exec_ret_of_empty⟩⟩
  exact ⟨(s.pop.setPc s.stack[j]).advance, exec_ret_of_succ hj hsp, rfl, State.pop_sp_of_succ hsp, rfl, fun _ => rfl⟩

end Sys2Proof.Machine
end

section
/-! The conditional skips (spec/43_skip.md): by how much 3XNN, 4XNN, 5XY0, 9XY0, EX9E and EXA1 move PC, and the fault of
a key index above 15 (R74 to R79). -/

namespace Sys2Proof.Machine

/-! ## Encoding -/

/-- A row whose pattern fixes op[15:12] and op[3:0] is decided by the family and fn. -/
theorem rowDecodes_of_family_fn {b : Word} {f : Word → Instr} {fam fn : Nibble} (hfam : opFam b = fam)
    (hfn : opN b = fn) (h : ∀ w, opFam w = fam → opN w = fn → decode w = some (f w)) : rowDecodes b 0xF00F f := by
  intro w hw
  obtain ⟨hwfam, hwfn⟩ := opFam_of_F00F hw
  exact h w (hwfam.trans hfam) (hwfn.trans hfn)

/-- A row whose pattern fixes op[15:12] and op[7:0] is decided by the family and fn8. -/
theorem rowDecodes_of_family_fn8 {b : Word} {f : Word → Instr} {fam : Nibble} {fn8 : Byte} (hfam : opFam b = fam)
    (hfn8 : opNN b = fn8) (h : ∀ w, opFam w = fam → opNN w = fn8 → decode w = some (f w)) : rowDecodes b 0xF0FF f := by
  intro w hw
  obtain ⟨hwfam, hwfn8⟩ := opFam_of_F0FF hw
  exact h w (hwfam.trans hfam) (hwfn8.trans hfn8)

theorem rowDecodes_seImm : rowDecodes 0x3000 0xF000 (fun w => .seImm (opX w) (opNN w)) :=
  rowDecodes_of_family (fam := 0x3#4) (by decide) fun w hfam => by simp [decode, hfam]

theorem rowDecodes_sneImm : rowDecodes 0x4000 0xF000 (fun w => .sneImm (opX w) (opNN w)) :=
  rowDecodes_of_family (fam := 0x4#4) (by decide) fun w hfam => by simp [decode, hfam]

theorem rowDecodes_seReg : rowDecodes 0x5000 0xF00F (fun w => .seReg (opX w) (opY w)) :=
  rowDecodes_of_family_fn (fam := 0x5#4) (fn := 0x0#4) (by decide) (by decide) fun w hfam hfn => by
    simp [decode, hfam, hfn]

theorem rowDecodes_sneReg : rowDecodes 0x9000 0xF00F (fun w => .sneReg (opX w) (opY w)) :=
  rowDecodes_of_family_fn (fam := 0x9#4) (fn := 0x0#4) (by decide) (by decide) fun w hfam hfn => by
    simp [decode, hfam, hfn]

theorem rowDecodes_skp : rowDecodes 0xE09E 0xF0FF (fun w => .skp (opX w)) :=
  rowDecodes_of_family_fn8 (fam := 0xE#4) (fn8 := 0x9E#8) (by decide) (by decide) fun w hfam hfn8 => by
    simp [decode, hfam, hfn8]

theorem rowDecodes_sknp : rowDecodes 0xE0A1 0xF0FF (fun w => .sknp (opX w)) :=
  rowDecodes_of_family_fn8 (fam := 0xE#4) (fn8 := 0xA1#8) (by decide) (by decide) fun w hfam hfn8 => by
    simp [decode, hfam, hfn8]

/-! ## The answers -/

/-- Two increments by 2 are one by 4; `c` is the condition as the model computes it, `p` as the rule has it. -/
theorem State.skipWhen_eq (s : State) {c : Bool} {p : Prop} [Decidable p] (h : c = true ↔ p) :
    s.skipWhen c = { s with pc := s.pc + if p then 4 else 2 } := by
  have hpc : (if c = true then s.pc + 2 + 2 else s.pc + 2) = s.pc + if p then 4 else 2 := by
    by_cases hp : p
    · rw [if_pos (h.2 hp), if_pos hp, BitVec.add_assoc]
      rfl
    · rw [if_neg (mt h.1 hp), if_neg hp]
  rw [State.skipWhen, hpc]
  rfl

theorem exec_seImm (s : State) (x : RegIx) (nn : Byte) :
    exec (.seImm x nn) s = .next (s.skipWhen (s.reg x == nn)) := rfl

theorem exec_sneImm (s : State) (x : RegIx) (nn : Byte) :
    exec (.sneImm x nn) s = .next (s.skipWhen (s.reg x != nn)) := rfl

theorem exec_seReg (s : State) (x y : RegIx) :
    exec (.seReg x y) s = .next (s.skipWhen (s.reg x == s.reg y)) := rfl

theorem exec_sneReg (s : State) (x y : RegIx) :
    exec (.sneReg x y) s = .next (s.skipWhen (s.reg x != s.reg y)) := rfl

section
variable {s : State} {x : RegIx}

theorem exec_skp_of_key (h : (s.reg x).toNat ≤ 15) :
    exec (.skp x) s = .next (s.skipWhen (s.keyDown (s.reg x).toNat)) := by
  simp only [exec, execSkp, keyLevel_of_lt s (Nat.lt_succ_of_le h)]

theorem exec_sknp_of_key (h : (s.reg x).toNat ≤ 15) :
    exec (.sknp x) s = .next (s.skipWhen !s.keyDown (s.reg x).toNat) := by
  simp only [exec, execSknp, keyLevel_of_lt s (Nat.lt_succ_of_le h)]

theorem exec_skp_of_noKey (h : 15 < (s.reg x).toNat) :
    exec (.skp x) s = .next (s.faulted .keyIndex (some (encode (.skp x))) (some (s.reg x).toNat)) := by
  simp only [exec, execSkp, keyLevel_of_ge s h]
  rfl

theorem exec_sknp_of_noKey (h : 15 < (s.reg x).toNat) :
    exec (.sknp x) s = .next (s.faulted .keyIndex (some (encode (.sknp x))) (some (s.reg x).toNat)) := by
  simp only [exec, execSknp, keyLevel_of_ge s h]
  rfl

end

/-! ## The statements -/

/-- Settles O28: each of the four answers a skip, whose condition is the rule's equality or inequality. -/
theorem conditionalSkipsMovePc : Obligations.ConditionalSkipsMovePc := by
  refine ⟨rowDecodes_seImm, rowDecodes_sneImm, rowDecodes_seReg, rowDecodes_sneReg, fun s x y nn => ⟨?_, ?_, ?_, ?_⟩⟩
  · rw [exec_seImm, State.skipWhen_eq s beq_iff_eq]
  · rw [exec_sneImm, State.skipWhen_eq s bne_iff_ne]
  · rw [exec_seReg, State.skipWhen_eq s beq_iff_eq]
  · rw [exec_sneReg, State.skipWhen_eq s bne_iff_ne]

/-- Settles O29: a V[X] that names a key gives a skip by its level, or by the opposite of it; one above 15 names none. -/
theorem keySkipsMovePcOrFault : Obligations.KeySkipsMovePcOrFault := by
  refine ⟨rowDecodes_skp, rowDecodes_sknp, fun s x => ⟨fun hkey => ⟨?_, ?_⟩, fun hno => ?_⟩⟩
  · rw [exec_skp_of_key hkey, State.skipWhen_eq s Iff.rfl]
  · rw [exec_sknp_of_key hkey, State.skipWhen_eq s (Bool.not_eq_true' _).to_iff]
  · exact ⟨exec_skp_of_noKey hno, exec_sknp_of_noKey hno⟩

end Sys2Proof.Machine
end

section
/-! The register and ALU instructions (spec/44_alu.md): the registers each of 6XNN, 7XNN and 8XY0 to 8XYE leaves, in
every case of X = F and Y = F, and that it changes nothing else but PC (R81 to R92). -/

namespace Sys2Proof.Machine

/-! ## Encoding -/

theorem rowDecodes_ldImm : rowDecodes 0x6000 0xF000 (fun w => .ldImm (opX w) (opNN w)) :=
  rowDecodes_of_family (fam := 0x6#4) (by decide) fun w hfam => by simp [decode, hfam]

theorem rowDecodes_addImm : rowDecodes 0x7000 0xF000 (fun w => .addImm (opX w) (opNN w)) :=
  rowDecodes_of_family (fam := 0x7#4) (by decide) fun w hfam => by simp [decode, hfam]

/-- A row of family 8 is decided by the secondary dispatch on fn. -/
theorem rowDecodes_of_family8 {b : Word} {f : RegIx → RegIx → Instr} (hfam : opFam b = 0x8#4)
    (h : ∀ x y, decodeFamily8 x y (opN b).toNat = some (f x y)) :
    rowDecodes b 0xF00F (fun w => f (opX w) (opY w)) :=
  rowDecodes_of_family_fn hfam rfl fun w hwfam hwfn => by simp [decode, hwfam, hwfn, h]

theorem rowDecodes_ldReg : rowDecodes 0x8000 0xF00F (fun w => .ldReg (opX w) (opY w)) :=
  rowDecodes_of_family8 (by decide) fun _ _ => rfl

theorem rowDecodes_orReg : rowDecodes 0x8001 0xF00F (fun w => .orReg (opX w) (opY w)) :=
  rowDecodes_of_family8 (by decide) fun _ _ => rfl

theorem rowDecodes_andReg : rowDecodes 0x8002 0xF00F (fun w => .andReg (opX w) (opY w)) :=
  rowDecodes_of_family8 (by decide) fun _ _ => rfl

theorem rowDecodes_xorReg : rowDecodes 0x8003 0xF00F (fun w => .xorReg (opX w) (opY w)) :=
  rowDecodes_of_family8 (by decide) fun _ _ => rfl

theorem rowDecodes_addReg : rowDecodes 0x8004 0xF00F (fun w => .addReg (opX w) (opY w)) :=
  rowDecodes_of_family8 (by decide) fun _ _ => rfl

theorem rowDecodes_subReg : rowDecodes 0x8005 0xF00F (fun w => .subReg (opX w) (opY w)) :=
  rowDecodes_of_family8 (by decide) fun _ _ => rfl

theorem rowDecodes_shr : rowDecodes 0x8006 0xF00F (fun w => .shr (opX w) (opY w)) :=
  rowDecodes_of_family8 (by decide) fun _ _ => rfl

theorem rowDecodes_subn : rowDecodes 0x8007 0xF00F (fun w => .subn (opX w) (opY w)) :=
  rowDecodes_of_family8 (by decide) fun _ _ => rfl

theorem rowDecodes_shl : rowDecodes 0x800E 0xF00F (fun w => .shl (opX w) (opY w)) :=
  rowDecodes_of_family8 (by decide) fun _ _ => rfl

/-! ## Values -/

theorem add_eq_ofNat_mod (a b : Byte) : a + b = BitVec.ofNat 8 ((a.toNat + b.toNat) % 256) :=
  BitVec.eq_of_toNat_eq (by simp)

theorem ushiftRight_one_eq_half (a : Byte) : a >>> 1 = BitVec.ofNat 8 (a.toNat / 2) := by
  have hlt : a.toNat / 2 < 256 := by omega
  apply BitVec.eq_of_toNat_eq
  simp [Nat.shiftRight_eq_div_pow, Nat.mod_eq_of_lt hlt]

theorem shiftLeft_one_eq_double (a : Byte) : a <<< 1 = BitVec.ofNat 8 (2 * a.toNat % 256) := by
  apply BitVec.eq_of_toNat_eq
  simp [Nat.shiftLeft_eq, Nat.mul_comm]

theorem carryFlag_eq_ite (a b : Byte) : carryFlag a b = if a.toNat + b.toNat > 255 then 1 else 0 := by
  simp [carryFlag, flag]

theorem noBorrowFlag_eq_ite (a b : Byte) : noBorrowFlag a b = if a.toNat < b.toNat then 0 else 1 := by
  by_cases h : a.toNat < b.toNat <;> simp [noBorrowFlag, flag, h]

theorem lowBitFlag_eq_mod_two (a : Byte) : lowBitFlag a = BitVec.ofNat 8 (a.toNat % 2) := by
  have hlt : a.toNat % 2 < 256 := by omega
  apply BitVec.eq_of_toNat_eq
  simp [lowBitFlag, Nat.and_one_is_mod, Nat.mod_eq_of_lt hlt]

theorem highBitFlag_eq_ite (a : Byte) : highBitFlag a = if 128 ≤ a.toNat then 1 else 0 := by
  rw [highBitFlag_eq, ← BitVec.msb_eq_getLsbD_last, BitVec.msb_eq_decide]
  simp [flag]

/-- 8XY6 with X = F shifts the flag just written: it holds bit 0 alone. -/
theorem lowBitFlag_ushiftRight_one (a : Byte) : lowBitFlag a >>> 1 = 0 := by
  rw [lowBitFlag_eq]
  cases a.getLsbD 0 <;> rfl

/-- 8XYE with X = F shifts the flag just written, so the bit shifted out ends as bit 1. -/
theorem highBitFlag_shiftLeft_one (a : Byte) : highBitFlag a <<< 1 = if 128 ≤ a.toNat then 2 else 0 := by
  rw [highBitFlag_eq_ite]
  split <;> rfl

/-! ## What the shared forms leave in the registers -/

/-- The answer of an instruction that only writes V[X]. -/
theorem setReg_advance_spec (s : State) (x : RegIx) (b : Byte) :
    regsThenNext s (s.setReg x b).advance fun r => if r = x then b else s.reg r :=
  ⟨fun r => s.reg_setReg x r b, rfl, fun _ => rfl⟩

/-- The answer of a logic instruction: VF is cleared last (R85 to R87). -/
theorem logicOp_spec (op : Byte → Byte → Byte) (x y : RegIx) (s : State) :
    ∃ t, logicOp op x y s = .next t ∧ regsThenNext s t fun r =>
      if r = VF then 0 else if r = x then op (s.reg x) (s.reg y) else s.reg r :=
  ⟨_, rfl, fun r => by simp only [State.advance_reg, State.reg_setReg], rfl, fun _ => rfl⟩

/-- The answer of an arithmetic instruction: V[X] is written last, and its value may depend on the flag (R88 to R92). -/
theorem flagThenResult_spec (vf : Byte) (x : RegIx) (result : State → Byte) (s : State) :
    ∃ t, flagThenResult vf x result s = .next t ∧ regsThenNext s t fun r =>
      if r = x then result (s.setReg VF vf) else if r = VF then vf else s.reg r :=
  ⟨_, rfl, fun r => by simp only [State.advance_reg, State.reg_setReg], rfl, fun _ => rfl⟩

/-- A difference read after the flag is written, by which of its operands is VF (R81). -/
theorem reg_sub_reg_after_flag (s : State) (a b : RegIx) (f : Byte) :
    (s.setReg VF f).reg a - (s.setReg VF f).reg b =
      if a = VF ∧ b = VF then 0 else if a = VF then f - s.reg b else if b = VF then s.reg a - f
        else s.reg a - s.reg b := by
  simp only [State.reg_setReg]
  by_cases ha : a = VF <;> by_cases hb : b = VF <;> simp [ha, hb]

/-- The answer of a shift: for X = F the flag itself is shifted, else V[X] and the flag is left in VF. -/
theorem flagThenShift_spec (vf : Byte) (x : RegIx) (shift : Byte → Byte) (s : State) :
    ∃ t, flagThenResult vf x (fun t => shift (t.reg x)) s = .next t ∧ regsThenNext s t fun r =>
      if r = VF then (if x = VF then shift vf else vf) else if r = x then shift (s.reg x) else s.reg r := by
  obtain ⟨t, hexec, hregs, hframe, hbytes⟩ := flagThenResult_spec vf x (fun t => shift (t.reg x)) s
  refine ⟨t, hexec, fun r => (hregs r).trans ?_, hframe, hbytes⟩
  by_cases hx : x = VF
  · subst hx
    by_cases hr : r = VF <;> simp [hr]
  · by_cases hr : r = VF
    · simp [hr, hx, Ne.symm hx]
    · simp [hr, State.reg_setReg, hx]

/-! ## The statements -/

/-- Settles O23: the flag is `noBorrowFlag`, and the difference reads it where an operand is VF. -/
theorem subtractByOperandAliasing : Obligations.SubtractByOperandAliasing := by
  refine ⟨rowDecodes_subReg, fun s x y f hf => ?_⟩
  obtain rfl : f = noBorrowFlag (s.reg x) (s.reg y) := hf.trans (noBorrowFlag_eq_ite _ _).symm
  simp only [← reg_sub_reg_after_flag]
  exact flagThenResult_spec _ x (fun t => t.reg x - t.reg y) s

/-- Settles O25: 8XY5's flag and difference with the operands exchanged. -/
theorem subtractReversedByOperandAliasing : Obligations.SubtractReversedByOperandAliasing := by
  refine ⟨rowDecodes_subn, fun s x y f hf => ?_⟩
  obtain rfl : f = noBorrowFlag (s.reg y) (s.reg x) := hf.trans (noBorrowFlag_eq_ite _ _).symm
  obtain ⟨t, hexec, hregs, hframe, hbytes⟩ := flagThenResult_spec _ x (fun t => t.reg y - t.reg x) s
  refine ⟨t, hexec, fun r => (hregs r).trans ?_, hframe, hbytes⟩
  simp only [reg_sub_reg_after_flag]
  by_cases hx : x = VF <;> by_cases hy : y = VF <;> simp [hx, hy]

/-- Settles O24: the shift form with bit 0 as its flag; a flag shifted right is 0. -/
theorem shiftRightByOperandAliasing : Obligations.ShiftRightByOperandAliasing := by
  refine ⟨rowDecodes_shr, fun s x y => ?_⟩
  rw [← lowBitFlag_eq_mod_two, ← ushiftRight_one_eq_half, ← lowBitFlag_ushiftRight_one (s.reg x)]
  exact flagThenShift_spec _ x (· >>> 1) s

/-- Settles O26: the shift form with bit 7 as its flag; a flag shifted left is 0 or 2. -/
theorem shiftLeftByOperandAliasing : Obligations.ShiftLeftByOperandAliasing := by
  refine ⟨rowDecodes_shl, fun s x y => ?_⟩
  rw [← highBitFlag_shiftLeft_one, ← highBitFlag_eq_ite, ← shiftLeft_one_eq_double]
  exact flagThenShift_spec _ x (· <<< 1) s

/-- Settles O20: each of the three only writes V[X]; a byte sum is the sum modulo 256. -/
theorem loadAddConstantAndCopy : Obligations.LoadAddConstantAndCopy := by
  refine ⟨rowDecodes_ldImm, rowDecodes_addImm, rowDecodes_ldReg, fun s x y nn => ?_⟩
  rw [← add_eq_ofNat_mod]
  exact ⟨⟨_, rfl, setReg_advance_spec s x nn⟩, ⟨_, rfl, setReg_advance_spec s x (s.reg x + nn)⟩,
    ⟨_, rfl, setReg_advance_spec s x (s.reg y)⟩⟩

/-- Settles O21: the three are the logic form with their own operation. -/
theorem logicClearsVF : Obligations.LogicClearsVF :=
  ⟨rowDecodes_orReg, rowDecodes_andReg, rowDecodes_xorReg, fun s x y =>
    ⟨logicOp_spec (· ||| ·) x y s, logicOp_spec (· &&& ·) x y s, logicOp_spec (· ^^^ ·) x y s⟩⟩

/-- Settles O22: the flag is `carryFlag`, and the sum, read before any write, does not depend on it. -/
theorem addWritesCarryThenSum : Obligations.AddWritesCarryThenSum := by
  refine ⟨rowDecodes_addReg, fun s x y => ?_⟩
  rw [← add_eq_ofNat_mod, ← carryFlag_eq_ite]
  exact flagThenResult_spec _ x (fun _ => s.reg x + s.reg y) s

end Sys2Proof.Machine
end

section
/-! The index register and memory instructions (spec/45_index_memory.md): the value ANNN, FX1E and FX29 leave in I, the
bytes FX33 and FX55 store and the registers FX65 loads, what each leaves unchanged, and DataBoundsFault (R94 to R99). -/

namespace Sys2Proof.Machine

/-! ## Encoding -/

/-- A row of family F is decided by the secondary dispatch on fn8. -/
theorem rowDecodes_of_familyF {b : Word} {f : RegIx → Instr} (hfam : opFam b = 0xF#4)
    (h : ∀ x, decodeFamilyF x (opNN b).toNat = some (f x)) : rowDecodes b 0xF0FF (fun w => f (opX w)) :=
  rowDecodes_of_family_fn8 hfam rfl fun w hwfam hwfn8 => by simp [decode, hwfam, hwfn8, h]

theorem rowDecodes_ldI : rowDecodes 0xA000 0xF000 (fun w => .ldI (opNNN w)) :=
  rowDecodes_of_family (fam := 0xA#4) (by decide) fun w hfam => by simp [decode, hfam]

theorem rowDecodes_addI : rowDecodes 0xF01E 0xF0FF (fun w => .addI (opX w)) :=
  rowDecodes_of_familyF (by decide) fun _ => rfl

theorem rowDecodes_ldF : rowDecodes 0xF029 0xF0FF (fun w => .ldF (opX w)) :=
  rowDecodes_of_familyF (by decide) fun _ => rfl

theorem rowDecodes_ldB : rowDecodes 0xF033 0xF0FF (fun w => .ldB (opX w)) :=
  rowDecodes_of_familyF (by decide) fun _ => rfl

theorem rowDecodes_storeRegs : rowDecodes 0xF055 0xF0FF (fun w => .storeRegs (opX w)) :=
  rowDecodes_of_familyF (by decide) fun _ => rfl

theorem rowDecodes_loadRegs : rowDecodes 0xF065 0xF0FF (fun w => .loadRegs (opX w)) :=
  rowDecodes_of_familyF (by decide) fun _ => rfl

/-! ## Values -/

theorem rangeFlag_eq_ite (w : Word) (b : Byte) : rangeFlag w b = if w.toNat + b.toNat > 4095 then 1 else 0 := by
  simp [rangeFlag, flag]

theorem add_zext_toNat (w : Word) (b : Byte) : (w + b.setWidth 16).toNat = (w.toNat + b.toNat) % 65536 := by
  simp

theorem State.bumpI_i_toNat (s : State) (x : RegIx) : (s.bumpI x).i.toNat = (s.i.toNat + x.toNat + 1) % 65536 := by
  simp [Nat.add_assoc]

/-- Each digit fits a byte, so storing it loses nothing (R97). -/
theorem decimalDigits_toNat (b : Byte) :
    (decimalDigits b).map BitVec.toNat = [b.toNat / 100, b.toNat / 10 % 10, b.toNat % 10] := by
  have hb := b.isLt
  simp only [decimalDigits, List.map_cons, List.map_nil, BitVec.toNat_ofNat, List.cons.injEq, and_true]
  omega

/-! ## Accesses to bytes I, …, I + n -/

section
variable {s : State} {n : Nat} (ins : Instr) (t : State)

theorem withBytesAtI_of_fits (h : s.i.toNat + n ≤ 4095) : withBytesAtI ins (n + 1) s t = .next t :=
  if_pos ((inMemory_iff _ _).2 (by omega))

theorem withBytesAtI_of_outside (h : 4095 < s.i.toNat + n) : withBytesAtI ins (n + 1) s t =
    .next (s.faulted .dataBounds (some (encode ins)) (some (max s.i.toNat 4096))) := by
  have hout : inMemory s.i.toNat (n + 1) = false := (not_inMemory_iff _ _).2 (by omega)
  exact if_neg (by simp [hout])

end

/-! ## The answers -/

theorem exec_ldI (s : State) (nnn : Addr) : exec (.ldI nnn) s = .next (s.setI (addrOperand nnn)).advance := rfl

theorem exec_ldF (s : State) (x : RegIx) : exec (.ldF x) s = .next (s.setI (glyphAddr (s.reg x))).advance := rfl

/-- The state FX1E answers, with `f` the flag it writes (R95). -/
def State.indexAdded (s : State) (x : RegIx) (f : Byte) : State :=
  ((s.setReg VF f).setI (s.i + ((s.setReg VF f).reg x).setWidth 16)).advance

theorem exec_addI (s : State) (x : RegIx) : exec (.addI x) s = .next (s.indexAdded x (rangeFlag s.i (s.reg x))) := rfl

/-- The state FX33 answers when its bytes lie in memory (R97). -/
def State.digitsStored (s : State) (x : RegIx) : State :=
  (s.setMem (s.mem.putBytes s.i.toNat (decimalDigits (s.reg x)))).advance

theorem exec_ldB (s : State) (x : RegIx) : exec (.ldB x) s = withBytesAtI (.ldB x) (2 + 1) s (s.digitsStored x) := rfl

/-- The state FX55 answers when its bytes lie in memory (R98). -/
def State.regsStored (s : State) (x : RegIx) : State :=
  ((s.setMem (s.mem.putBytes s.i.toNat (regBlock s x))).bumpI x).advance

theorem exec_storeRegs (s : State) (x : RegIx) :
    exec (.storeRegs x) s = withBytesAtI (.storeRegs x) (x.toNat + 1) s (s.regsStored x) := rfl

/-- The state FX65 answers when its bytes lie in memory (R99). -/
def State.regsLoaded (s : State) (x : RegIx) : State :=
  ((s.loadRegsFrom s.i.toNat (x.toNat + 1)).bumpI x).advance

theorem exec_loadRegs (s : State) (x : RegIx) :
    exec (.loadRegs x) s = withBytesAtI (.loadRegs x) (x.toNat + 1) s (s.regsLoaded x) := rfl

/-! ## FX1E: VF and I -/

theorem indexAdded_reg (s : State) (x : RegIx) (f : Byte) (r : RegIx) :
    (s.indexAdded x f).reg r = if r = VF then f else s.reg r := s.reg_setReg VF r f

/-- I grows by V[X] as it stands after the flag is written. -/
theorem indexAdded_i_toNat (s : State) (x : RegIx) (f : Byte) :
    (s.indexAdded x f).i.toNat = (s.i.toNat + (if x = VF then f else s.reg x).toNat) % 65536 := by
  rw [← State.reg_setReg]
  exact add_zext_toNat s.i _

/-! ## FX33: the bytes -/

/-- The byte at I + k is the k-th digit. -/
theorem digitsStored_byteAt_inside {s : State} (hm : s.mem.wf) (hfits : s.i.toNat + 2 ≤ 4095) (x : RegIx) {k : Nat}
    (hk : k < 3) : ((s.digitsStored x).byteAt (s.i.toNat + k)).toNat =
      [(s.reg x).toNat / 100, (s.reg x).toNat / 10 % 10, (s.reg x).toNat % 10][k] := by
  have hbyte : (s.digitsStored x).byteAt (s.i.toNat + k) = (decimalDigits (s.reg x))[k] :=
    Memory.get_putBytes_inside hm (by simp only [decimalDigits_length]; omega) hk
  simp only [hbyte, ← decimalDigits_toNat]
  exact (List.getElem_map BitVec.toNat).symm

theorem digitsStored_byteAt_outside (s : State) (x : RegIx) {a : Nat} (ha : a < s.i.toNat ∨ s.i.toNat + 2 < a) :
    (s.digitsStored x).byteAt a = s.byteAt a :=
  Memory.get_putBytes_outside s.mem _ (by simp only [decimalDigits_length]; omega)

/-! ## FX55: the bytes -/

theorem regsStored_byteAt_inside {s : State} (hm : s.mem.wf) {x : RegIx} (hfits : s.i.toNat + x.toNat ≤ 4095)
    {r : RegIx} (hr : r.toNat ≤ x.toNat) : (s.regsStored x).byteAt (s.i.toNat + r.toNat) = s.reg r := by
  have hk : r.toNat < (regBlock s x).length := by simp only [regBlock_length]; omega
  have hbyte : (s.regsStored x).byteAt (s.i.toNat + r.toNat) = (regBlock s x)[r.toNat] :=
    Memory.get_putBytes_inside hm (by simp only [regBlock_length]; omega) hk
  rw [hbyte, regBlock_getElem, BitVec.ofNat_toNat, BitVec.setWidth_eq]

theorem regsStored_byteAt_outside (s : State) (x : RegIx) {a : Nat} (ha : a < s.i.toNat ∨ s.i.toNat + x.toNat < a) :
    (s.regsStored x).byteAt a = s.byteAt a :=
  Memory.get_putBytes_outside s.mem _ (by simp only [regBlock_length]; omega)

/-! ## FX65: the registers -/

theorem regsLoaded_reg (s : State) (x r : RegIx) :
    (s.regsLoaded x).reg r = if r.toNat ≤ x.toNat then s.byteAt (s.i.toNat + r.toNat) else s.reg r := by
  simp only [State.regsLoaded, State.advance_reg, State.bumpI_reg, loadRegsFrom_reg s _ x.isLt, Nat.lt_succ_iff]

/-- A block load writes V, I and PC alone. -/
theorem regsLoaded_frame (s : State) (x : RegIx) : s.regsLoaded x =
    { s with v := (s.regsLoaded x).v, i := (s.regsLoaded x).i, pc := s.pc + 2 } := by
  rw [State.regsLoaded, loadRegsFrom_frame]
  rfl

theorem regsLoaded_i_toNat (s : State) (x : RegIx) :
    (s.regsLoaded x).i.toNat = (s.i.toNat + x.toNat + 1) % 65536 := by
  rw [State.regsLoaded, loadRegsFrom_frame]
  exact State.bumpI_i_toNat _ x

/-! ## The statements -/

/-- Settles O36: the three digits are the run of bytes at I; without room for it the bounds check takes the fault. -/
theorem decimalDigitsAreStored : Obligations.DecimalDigitsAreStored := by
  refine ⟨rowDecodes_ldB, fun s x hm => ⟨fun hfits => ?_, withBytesAtI_of_outside (.ldB x) _⟩⟩
  have hdigit {k : Nat} (hk : k < 3) := digitsStored_byteAt_inside hm hfits x hk
  exact ⟨s.digitsStored x, (exec_ldB s x).trans (withBytesAtI_of_fits _ _ hfits), hdigit (k := 0) (by decide),
    hdigit (k := 1) (by decide), hdigit (k := 2) (by decide), fun _ => digitsStored_byteAt_outside s x, rfl⟩

/-- Settles O37: the register block is the run of bytes at I; without room for it the bounds check takes the fault. -/
theorem registerBlockIsStored : Obligations.RegisterBlockIsStored := by
  refine ⟨rowDecodes_storeRegs, fun s x hm => ⟨fun hfits => ?_, withBytesAtI_of_outside (.storeRegs x) _⟩⟩
  exact ⟨s.regsStored x, (exec_storeRegs s x).trans (withBytesAtI_of_fits _ _ hfits),
    fun _ => regsStored_byteAt_inside hm hfits, fun _ => regsStored_byteAt_outside s x, State.bumpI_i_toNat _ x, rfl⟩

/-- Settles O38: `loadRegsFrom` gives the registers and changes nothing else; without room the fault is taken. -/
theorem registerBlockIsLoaded : Obligations.RegisterBlockIsLoaded := by
  refine ⟨rowDecodes_loadRegs, fun s x => ⟨fun hfits => ?_, withBytesAtI_of_outside (.loadRegs x) _⟩⟩
  have hframe := regsLoaded_frame s x
  exact ⟨s.regsLoaded x, (exec_loadRegs s x).trans (withBytesAtI_of_fits _ _ hfits), regsLoaded_reg s x,
    regsLoaded_i_toNat s x, hframe, fun _ => by rw [hframe]; rfl⟩

/-- Settles O34: both only write I, and neither value needs more than 16 bits. -/
theorem indexLoads : Obligations.IndexLoads := by
  refine ⟨rowDecodes_ldI, rowDecodes_ldF, fun s nnn x => ⟨?_, ?_⟩⟩
  · exact ⟨(s.setI (addrOperand nnn)).advance, exec_ldI s nnn, addrOperand_toNat nnn, rfl, fun _ => rfl⟩
  · exact ⟨(s.setI (glyphAddr (s.reg x))).advance, exec_ldF s x, glyphAddr_toNat (s.reg x), rfl, fun _ => rfl⟩

/-- Settles O35: the flag is `rangeFlag`, written before V[X] is read again. -/
theorem indexAddWritesRangeFlag : Obligations.IndexAddWritesRangeFlag := by
  refine ⟨rowDecodes_addI, fun s x f hf => ?_⟩
  obtain rfl : f = rangeFlag s.i (s.reg x) := hf.trans (rangeFlag_eq_ite _ _).symm
  exact ⟨s.indexAdded x _, exec_addI s x, indexAdded_reg s x _, indexAdded_i_toNat s x _, rfl, fun _ => rfl⟩

end Sys2Proof.Machine
end

section
/-! The timer and key-wait instructions (spec/46_timer_key.md): what FX07, FX15 and FX18 move, and what FX0A does with a
key down and with none, before the tick of the step (R101 to R104). -/

namespace Sys2Proof.Machine

/-! ## Encoding -/

theorem rowDecodes_ldVxDT : rowDecodes 0xF007 0xF0FF (fun w => .ldVxDT (opX w)) :=
  rowDecodes_of_familyF (by decide) fun _ => rfl

theorem rowDecodes_ldVxK : rowDecodes 0xF00A 0xF0FF (fun w => .ldVxK (opX w)) :=
  rowDecodes_of_familyF (by decide) fun _ => rfl

theorem rowDecodes_ldDTVx : rowDecodes 0xF015 0xF0FF (fun w => .ldDTVx (opX w)) :=
  rowDecodes_of_familyF (by decide) fun _ => rfl

theorem rowDecodes_ldSTVx : rowDecodes 0xF018 0xF0FF (fun w => .ldSTVx (opX w)) :=
  rowDecodes_of_familyF (by decide) fun _ => rfl

/-! ## The scan of the keypad -/

/-- The scan keeps the key that no pressed key stands above. -/
theorem lastPressed_of_highest {s : State} {k : Nat} (hk : k < 16) (hdown : s.keyDown k = true)
    (habove : ∀ j, k < j → j < 16 → s.keyDown j = false) : lastPressed s = some k := by
  have hspec := lastPressed_spec s
  cases hlast : lastPressed s with
  | none =>
    simp only [hlast] at hspec
    exact absurd hdown (by simp [hspec k hk])
  | some m =>
    simp only [hlast] at hspec
    obtain ⟨hm, hmdown, hmabove⟩ := hspec
    have hle : m ≤ k := not_lt.1 fun hlt => absurd hmdown (by simp [habove m hlt hm])
    have hge : k ≤ m := not_lt.1 fun hlt => absurd hdown (by simp [hmabove k hlt hk])
    rw [le_antisymm hle hge]

theorem lastPressed_of_no_key {s : State} (h : ∀ k, k < 16 → s.keyDown k = false) : lastPressed s = none := by
  have hspec := lastPressed_spec s
  cases hlast : lastPressed s with
  | none => rfl
  | some m =>
    simp only [hlast] at hspec
    obtain ⟨hm, hmdown, -⟩ := hspec
    exact absurd hmdown (by simp [h m hm])

/-! ## The answers -/

theorem exec_ldVxDT (s : State) (x : RegIx) : exec (.ldVxDT x) s = .next (s.setReg x s.dt).advance := rfl

theorem exec_ldDTVx (s : State) (x : RegIx) : exec (.ldDTVx x) s = .next (s.setDt (s.reg x)).advance := rfl

theorem exec_ldSTVx (s : State) (x : RegIx) : exec (.ldSTVx x) s = .next (s.setSt (s.reg x)).advance := rfl

theorem exec_ldVxK_of_pressed {s : State} {k : Nat} (x : RegIx) (h : lastPressed s = some k) :
    exec (.ldVxK x) s = .next (s.setReg x (BitVec.ofNat 8 k)).advance := by
  simp only [exec, execLdVxK, h]

theorem exec_ldVxK_of_no_key {s : State} (x : RegIx) (h : ∀ k, k < 16 → s.keyDown k = false) :
    exec (.ldVxK x) s = .next s := by
  simp only [exec, execLdVxK, lastPressed_of_no_key h]

/-! ## The statements -/

/-- Settles O42: the scan's result is the highest pressed key, and only V[X] takes it; without a key nothing is done. -/
theorem keyWaitTakesTheHighestKey : Obligations.KeyWaitTakesTheHighestKey := by
  refine ⟨rowDecodes_ldVxK, fun s x => ⟨fun k hk hdown habove => ?_, exec_ldVxK_of_no_key x⟩⟩
  exact ⟨_, exec_ldVxK_of_pressed x (lastPressed_of_highest hk hdown habove), setReg_advance_spec s x _⟩

/-- Settles O40: each of the three is one write of a register or a timer, one instruction further. -/
theorem timerTransfers : Obligations.TimerTransfers :=
  ⟨rowDecodes_ldVxDT, rowDecodes_ldDTVx, rowDecodes_ldSTVx, fun s x =>
    ⟨⟨_, exec_ldVxDT s x, setReg_advance_spec s x s.dt⟩, exec_ldDTVx s x, exec_ldSTVx s x⟩⟩

end Sys2Proof.Machine
end

section
/-! Faults and UNKNOWN words (spec/60_exceptions.md): what an instruction of R108's list does in a state where it
faults, and the whole step when its fetch or its instruction faults (R109) or its word is UNKNOWN (R107). -/

namespace Sys2Proof.Machine

/-! ## The word an instruction was decoded from

A record holds the instruction's encoding, where R109 asks for the word fetched: the decoder drops no bit of it. -/

theorem eq_ofNat_of_toNat_eq {n k : Nat} {b : BitVec n} (h : b.toNat = k) : b = BitVec.ofNat n k := by
  rw [← h, BitVec.ofNat_toNat, BitVec.setWidth_eq]

theorem encode_of_decodeFamily8 {x y : RegIx} {fn : Nibble} {i : Instr} (h : decodeFamily8 x y fn.toNat = some i) :
    encode i = 0x8#4 ++ x ++ y ++ fn := by
  unfold decodeFamily8 at h
  split at h
  case h_10 => cases h
  all_goals
    next hfn =>
    obtain rfl := eq_ofNat_of_toNat_eq hfn
    cases h
    rfl

theorem encode_of_decodeFamilyF {x : RegIx} {fn8 : Byte} {i : Instr} (h : decodeFamilyF x fn8.toNat = some i) :
    encode i = 0xF#4 ++ x ++ fn8 := by
  unfold decodeFamilyF at h
  split at h
  case h_10 => cases h
  all_goals
    next hfn8 =>
    obtain rfl := eq_ofNat_of_toNat_eq hfn8
    cases h
    rfl

section
variable {w : Word} {k : Nat}

theorem word_FA_of_family (h : (opFam w).toNat = k) : BitVec.ofNat 4 k ++ opNNN w = w := by
  rw [← eq_ofNat_of_toNat_eq h, word_FA]

theorem word_FXNN_of_family (h : (opFam w).toNat = k) : BitVec.ofNat 4 k ++ opX w ++ opNN w = w := by
  rw [← eq_ofNat_of_toNat_eq h, word_FXNN]

theorem word_FXYN_of_family (h : (opFam w).toNat = k) : BitVec.ofNat 4 k ++ opX w ++ opY w ++ opN w = w := by
  rw [← eq_ofNat_of_toNat_eq h, word_FXYN]

end

/-- The families in turn, by the format of their words (R54). -/
theorem encode_of_decode {w : Word} {i : Instr} (h : decode w = some i) : encode i = w := by
  unfold decode at h
  split at h
  case h_1 hfam =>
    have hw := word_FA_of_family hfam
    split_ifs at h with hcls hret
    · cases h
      rwa [hcls] at hw
    · cases h
      rwa [hret] at hw
  case h_2 hfam | h_3 hfam | h_11 hfam | h_12 hfam =>
    cases h
    exact word_FA_of_family hfam
  case h_4 hfam | h_5 hfam | h_7 hfam | h_8 hfam | h_13 hfam =>
    cases h
    exact word_FXNN_of_family hfam
  case h_6 hfam | h_10 hfam =>
    obtain ⟨hn, ⟨⟩⟩ := Option.ite_none_right_eq_some.1 h
    have hw := word_FXYN_of_family hfam
    rwa [hn] at hw
  case h_9 hfam => exact (encode_of_decodeFamily8 h).trans (word_FXYN_of_family hfam)
  case h_14 hfam =>
    cases h
    exact word_FXYN_of_family hfam
  case h_15 hfam =>
    have hw := word_FXNN_of_family hfam
    split_ifs at h with hskp hsknp
    · cases h
      rwa [hskp] at hw
    · cases h
      rwa [hsknp] at hw
  case h_16 =>
    have hfam : (opFam w).toNat = 15 := by
      have hlt := (opFam w).isLt
      grind
    exact (encode_of_decodeFamilyF h).trans (word_FXNN_of_family hfam)

/-! ## The instruction that faults -/

/-- R108's list, line by line: an instruction that faults takes the fault; the instructions not listed never do. -/
theorem exec_of_faultOf {s : State} {ins : Instr} {cause : Fault} {info : Option Nat}
    (h : faultOf ins s = some (cause, info)) :
    exec ins s = .next (s.faulted cause (some (encode ins)) info) := by
  cases ins with
  | ret =>
    obtain ⟨hempty, ⟨⟩⟩ := Option.ite_none_right_eq_some.1 h
    exact exec_ret_of_empty hempty
  | call nnn =>
    obtain ⟨hfull, ⟨⟩⟩ := Option.ite_none_right_eq_some.1 h
    exact exec_call_of_full nnn hfull
  | skp x =>
    obtain ⟨hno, ⟨⟩⟩ := Option.ite_none_right_eq_some.1 h
    exact exec_skp_of_noKey hno
  | sknp x =>
    obtain ⟨hno, ⟨⟩⟩ := Option.ite_none_right_eq_some.1 h
    exact exec_sknp_of_noKey hno
  | drw x y n =>
    obtain ⟨⟨hn, hout⟩, ⟨⟩⟩ := Option.ite_none_right_eq_some.1 h
    exact exec_drw_of_outside x y hn.ne' hout
  | ldB x =>
    obtain ⟨hout, ⟨⟩⟩ := Option.ite_none_right_eq_some.1 h
    exact withBytesAtI_of_outside (.ldB x) _ hout
  | storeRegs x =>
    obtain ⟨hout, ⟨⟩⟩ := Option.ite_none_right_eq_some.1 h
    exact withBytesAtI_of_outside (.storeRegs x) _ hout
  | loadRegs x =>
    obtain ⟨hout, ⟨⟩⟩ := Option.ite_none_right_eq_some.1 h
    exact withBytesAtI_of_outside (.loadRegs x) _ hout
  | _ => cases h

/-! ## The stages of a step -/

/-- What an instruction faults on is no output and no phase, so the stages before it do not matter. -/
@[simp] theorem faultOf_atExecute (ins : Instr) (s : State) (w : Word) :
    faultOf ins (s.atExecute w) = faultOf ins s := by
  cases ins <;> rfl

theorem traceStage_beginStep (s : State) (w : Word) : traceStage w (beginStep s) = s.atExecute w := beginStep_trace s w

theorem fetch_eq_wordAtPc {s : State} (h : s.pc.toNat ≤ 4094) : fetch s = some s.wordAtPc := fetch_of_le h

/-- A faulted instruction ends the step: no tick (R109, R118). -/
theorem endStep_faulted (s : State) (cause : Fault) (opcode : Option Word) (info : Option Nat) :
    endStep (.next (s.faulted cause opcode info)) = .next (s.faulted cause opcode info) := rfl

/-- A timer runs while it is above 0 (R117). -/
theorem timerRuns_iff (b : Byte) : (b != 0) = true ↔ 0 < b.toNat := by
  rw [bne_iff_ne, Nat.pos_iff_ne_zero, ne_eq, ne_eq, ← BitVec.toNat_inj]
  rfl

/-- The alert is the last event of a step that ticks (R119). -/
theorem tick_events_eq_append (s : State) :
    (tick s).events = s.events ++ if s.soundEnable = true ∧ 0 < s.st.toNat then [.alert] else [] := by
  simp only [tick_events, Bool.and_eq_true, timerRuns_iff]
  split
  · rfl
  · exact (List.append_nil _).symm

/-! ## The whole step -/

section
variable {s : State}

theorem step_of_fetchFault (hrun : s.running) (hpc : 4094 < s.pc.toNat) :
    step s = .next (fetchFault (beginStep s)) := by
  obtain ⟨hh, hp⟩ := hrun
  simp [step, hp, hh, fetch_beginStep, fetch_of_gt hpc]

theorem step_of_instructionFault {ins : Instr} {cause : Fault} {info : Option Nat} (hrun : s.running)
    (hpc : s.pc.toNat ≤ 4094) (hd : decode s.wordAtPc = some ins) (hf : faultOf ins s = some (cause, info)) :
    step s = .next ((s.atExecute s.wordAtPc).faulted cause (some s.wordAtPc) info) := by
  obtain ⟨hh, hp⟩ := hrun
  rw [step_of_decode hp hh (fetch_eq_wordAtPc hpc) hd, traceStage_beginStep,
    exec_of_faultOf ((faultOf_atExecute ins s _).trans hf), encode_of_decode hd, endStep_faulted]

theorem step_of_unknownWord (hrun : s.running) (hpc : s.pc.toNat ≤ 4094) (hd : decode s.wordAtPc = none) :
    step s = .next (tick (unknownStage s.wordAtPc (s.atExecute s.wordAtPc))) := by
  obtain ⟨hh, hp⟩ := hrun
  rw [step_of_unknown hp hh (fetch_eq_wordAtPc hpc) hd, traceStage_beginStep]

end

/-! ## The statements -/

/-- Settles O14: a fault is taken in the state the step began in, but for the trace, and nothing ticks after it. -/
theorem faultingStepIsPrecise : Obligations.FaultingStepIsPrecise := by
  intro s hrun
  exact ⟨step_of_fetchFault hrun, fun _ _ _ => step_of_instructionFault hrun⟩

/-- Settles O11: the step is the event and the tick, on the state after the trace. -/
theorem unknownWordOnlyTicks : Obligations.UnknownWordOnlyTicks := by
  intro s hrun hpc hd
  exact ⟨_, step_of_unknownWord hrun hpc hd, rfl, fun _ => rfl, countDown_toNat _, countDown_toNat _, timerRuns_iff _,
    tick_events_eq_append _⟩

end Sys2Proof.Machine
end

section
/-! What LoadROM does to the block (R131): the image placed, the block poisoned or the load refused, and the step that ends
phase BOOT. -/

namespace Sys2Proof.Machine

/-! ## The poisoned block -/

theorem step_of_poisoned {s : State} (hp : s.phase = .poisoned) : step s = .refused .poisoned := if_pos hp

@[simp] theorem hostReset_phase (s : State) : (hostReset s).phase = .boot := rfl

/-! ## The phase in a step -/

/-- Whatever next state a meaning answers in `s`, its load phase is that of `s`. -/
def KeepsPhase (s : State) (r : Result) : Prop := ∀ t, r = .next t → t.phase = s.phase

theorem keepsPhase_next {s u : State} (h : u.phase = s.phase) : KeepsPhase s (.next u) := by
  rintro t ⟨⟩
  exact h

theorem keepsPhase_withBytesAtI {s u : State} (ins : Instr) (n : Nat) (h : u.phase = s.phase) :
    KeepsPhase s (withBytesAtI ins n s u) := by
  obtain ⟨-, heq⟩ | ⟨-, heq⟩ := withBytesAtI_cases ins n s u
  · rw [heq]
    exact keepsPhase_next h
  · rw [heq]
    exact keepsPhase_next rfl

@[simp] theorem loadRegsFrom_phase (s : State) (base n : Nat) : (s.loadRegsFrom base n).phase = s.phase := by
  rw [loadRegsFrom_frame]

/-- No instruction writes the load phase: the ones that check something first by the outcomes of the check, the rest by
their one answer. -/
theorem exec_keepsPhase (i : Instr) (s : State) : KeepsPhase s (exec i s) := by
  cases i with
  | ret =>
    cases hsp : s.sp.val with
    | zero =>
      rw [exec_ret_of_empty hsp]
      exact keepsPhase_next rfl
    | succ j =>
      rw [exec_ret_of_succ (by omega) hsp]
      exact keepsPhase_next rfl
  | call nnn =>
    obtain hfree | hfull : s.sp.val < 16 ∨ s.sp.val = 16 := by omega
    · rw [exec_call_of_lt nnn hfree]
      exact keepsPhase_next rfl
    · rw [exec_call_of_full nnn hfull]
      exact keepsPhase_next rfl
  | skp x =>
    obtain hkey | hno := le_or_gt (s.reg x).toNat 15
    · rw [exec_skp_of_key hkey]
      exact keepsPhase_next rfl
    · rw [exec_skp_of_noKey hno]
      exact keepsPhase_next rfl
  | sknp x =>
    obtain hkey | hno := le_or_gt (s.reg x).toNat 15
    · rw [exec_sknp_of_key hkey]
      exact keepsPhase_next rfl
    · rw [exec_sknp_of_noKey hno]
      exact keepsPhase_next rfl
  | ldVxK x =>
    rw [exec, execLdVxK]
    split
    · exact keepsPhase_next rfl
    · exact keepsPhase_next rfl
  | drw => exact keepsPhase_withBytesAtI _ _ rfl
  | ldB => exact keepsPhase_withBytesAtI _ _ rfl
  | storeRegs => exact keepsPhase_withBytesAtI _ _ rfl
  | loadRegs x => exact keepsPhase_withBytesAtI _ _ (loadRegsFrom_phase s _ _)
  | _ => exact keepsPhase_next rfl

/-- A step of a block that is not halted leaves it in phase RUN, faulting or not. -/
theorem step_phase_of_not_halted {s t : State} (hh : s.halted = false) (h : step s = .next t) : t.phase = .run := by
  have hexec {i : Instr} {op : Word} {u : State} (hu : exec i (traceStage op (beginStep s)) = .next u) :
      u.phase = .run := by simpa using exec_keepsPhase i _ u hu
  obtain ⟨-, ⟨hhalt, -⟩ | ⟨-, -, rfl⟩ | ⟨op, -, -, -, rfl⟩ | ⟨op, i, u, -, -, -, hu, -, rfl⟩ |
    ⟨op, i, u, -, -, -, hu, -, rfl⟩⟩ := step_cases h
  · simp [hh] at hhalt
  · simp
  · simp
  · exact hexec hu
  · simpa using hexec hu

/-! ## The load -/

section
variable {s : State} {bytes : List Byte}

/-- An image that fits is the run of bytes at 512, and memory is all that changes. -/
theorem loadRom_places_of_fits (hm : s.mem.wf) (hp : s.phase = .boot) (hl : bytes.length ≤ 3584) :
    ∃ t, loadRom bytes s = (t, .loadSuccess) ∧ (∀ k (h : k < bytes.length), t.byteAt (512 + k) = bytes[k]) ∧
      (∀ a, a < 512 ∨ 512 + bytes.length ≤ a → t.byteAt a = s.byteAt a) ∧ t = { s with mem := t.mem } :=
  ⟨_, loadRom_of_fits hp hl, fun _ hk => Memory.get_putBytes_inside hm (by omega) hk,
    fun _ => Memory.get_putBytes_outside s.mem bytes, rfl⟩

/-- An image that is too long leaves some bytes from 512 on, and the block waits for Reset. -/
theorem loadRom_poisons_of_tooLong (hp : s.phase = .boot) (hl : 3584 < bytes.length) :
    ∃ t, loadRom bytes s = (t, .loadFailure) ∧ t.phase = .poisoned ∧ (∀ a, a < 512 → t.byteAt a = s.byteAt a) ∧
      step t = .refused .poisoned ∧ (hostReset t).phase = .boot ∧
      t = { s with mem := t.mem, phase := .poisoned, fresh := t.fresh } := by
  obtain ⟨image, himage⟩ := loadRom_of_tooLong hp hl
  exact ⟨_, himage, rfl, fun _ ha => Memory.get_putBytes_outside s.mem image (.inl ha), step_of_poisoned rfl,
    hostReset_phase _, rfl⟩

end

/-- Settles O54: the load by its three cases, and the step by `step_cases`, in which nothing writes the phase after the
step has begun. -/
theorem loadRomPlacesTheImage : Obligations.LoadRomPlacesTheImage :=
  ⟨fun _ bytes hm => ⟨loadRom_places_of_fits hm, loadRom_poisons_of_tooLong, loadRom_of_notBoot bytes⟩,
    fun _ _ _ => step_phase_of_not_halted⟩

end Sys2Proof.Machine
end

section
/-! What an instruction answers, said once for all 34: the fault of R108's list, or the completed instruction. What a
completed instruction leaves unchanged, piece of state by piece of state, and the statements on what no instruction
does. -/

namespace Sys2Proof.Machine

/-! ## The completed instruction -/

/-- The next state of an answer; `s` for an answer that has none, which no instruction gives. -/
def nextOr (s : State) : Result → State
  | .next t => t
  | .fault _ => s
  | .refused _ => s

/-- The state an instruction that does not fault answers (`exec_of_faultOf_none`): the meaning's own, but for those that
check something first, where it is written as the pieces of state they write. -/
def State.completed (s : State) : Instr → State
  | .ret => (s.pop.setPc (s.stack.getD (s.sp.val - 1) 0)).advance
  | .call nnn => { s with
      pc := addrOperand nnn
      sp := if h : s.sp.val < 16 then (s.push s.pc h).sp else s.sp
      stack := if h : s.sp.val < 16 then (s.push s.pc h).stack else s.stack }
  | .skp x => s.skipWhen (s.keyDown (s.reg x).toNat)
  | .sknp x => s.skipWhen !s.keyDown (s.reg x).toNat
  | .drw x y n => s.drawn x y n
  | .ldVxK x => { s with
      v := (lastPressed s).elim s.v fun k => (s.setReg x (BitVec.ofNat 8 k)).v
      pc := (lastPressed s).elim s.pc fun _ => s.pc + 2 }
  | .ldB x => s.digitsStored x
  | .storeRegs x => s.regsStored x
  | .loadRegs x => { s with v := (s.regsLoaded x).v, i := (s.regsLoaded x).i, pc := s.pc + 2 }
  | ins => nextOr s (exec ins s)

/-- Off R108's list an instruction completes. -/
theorem exec_of_faultOf_none {s : State} {ins : Instr} (h : faultOf ins s = none) :
    exec ins s = .next (s.completed ins) := by
  cases ins with
  | ret =>
    have hne : s.sp.val ≠ 0 := by simpa [faultOf] using h
    obtain ⟨j, hj⟩ := Nat.exists_eq_succ_of_ne_zero hne
    have hj16 : j < 16 := by omega
    rw [exec_ret_of_succ hj16 hj]
    simp [State.completed, hj, getD_eq_dite, hj16]
  | call nnn =>
    have hne : s.sp.val ≠ 16 := by simpa [faultOf] using h
    have hfree : s.sp.val < 16 := by omega
    rw [exec_call_of_lt nnn hfree, State.completed, dif_pos hfree, dif_pos hfree]
    rfl
  | skp x => exact exec_skp_of_key (by simpa [faultOf] using h)
  | sknp x => exact exec_sknp_of_key (by simpa [faultOf] using h)
  | drw x y n =>
    have hin : ¬ (0 < n.toNat ∧ 4095 < s.i.toNat + n.toNat - 1) := by simpa [faultOf] using h
    exact exec_drw_of_fits x y (by omega)
  | ldVxK x =>
    simp only [exec, execLdVxK, State.completed]
    cases lastPressed s <;> rfl
  | ldB x => exact withBytesAtI_of_fits _ _ (by simpa [faultOf] using h)
  | storeRegs x => exact withBytesAtI_of_fits _ _ (by simpa [faultOf] using h)
  | loadRegs x =>
    have hfits : s.i.toNat + x.toNat ≤ 4095 := by simpa [faultOf] using h
    rw [exec_loadRegs, withBytesAtI_of_fits _ _ hfits, regsLoaded_frame, State.completed]
  | _ => rfl

/-- Everything an instruction that answers a next state can have done. -/
theorem exec_next_cases {s t : State} {ins : Instr} (h : exec ins s = .next t) :
    (∃ cause info, faultOf ins s = some (cause, info) ∧ t = s.faulted cause (some (encode ins)) info) ∨
    (faultOf ins s = none ∧ t = s.completed ins) := by
  cases hf : faultOf ins s with
  | none => exact .inr ⟨rfl, Host.Outcome.next.inj (h.symm.trans (exec_of_faultOf_none hf))⟩
  | some f =>
    obtain ⟨cause, info⟩ := f
    exact .inl ⟨cause, info, rfl, Host.Outcome.next.inj (h.symm.trans (exec_of_faultOf hf))⟩

/-- What a completed instruction and a fault both leave, every instruction that answers a next state leaves. -/
theorem exec_next_keeps {P : State → Prop} {s t : State} {ins : Instr} (h : exec ins s = .next t)
    (hfault : ∀ cause opcode info, P (s.faulted cause opcode info)) (hdone : P (s.completed ins)) : P t := by
  obtain ⟨_, _, -, rfl⟩ | ⟨-, rfl⟩ := exec_next_cases h
  · exact hfault _ _ _
  · exact hdone

/-! ## What a completed instruction leaves unchanged -/

section
variable (s : State) (ins : Instr)

/-- No instruction writes the keys, the fault record, the load phase, the inputs or the outputs of the step. -/
theorem completed_frame : s.completed ins = { s with
    v := (s.completed ins).v, i := (s.completed ins).i, pc := (s.completed ins).pc, sp := (s.completed ins).sp,
    stack := (s.completed ins).stack, dt := (s.completed ins).dt, st := (s.completed ins).st,
    fb := (s.completed ins).fb, drawFlag := (s.completed ins).drawFlag, mem := (s.completed ins).mem,
    fresh := (s.completed ins).fresh } := by
  cases ins <;> rfl

@[simp] theorem completed_keys : (s.completed ins).keys = s.keys := by rw [completed_frame]
@[simp] theorem completed_faultRecord : (s.completed ins).faultRecord = s.faultRecord := by rw [completed_frame]
@[simp] theorem completed_halted : (s.completed ins).halted = s.halted := by rw [completed_frame]; rfl
@[simp] theorem completed_phase : (s.completed ins).phase = s.phase := by rw [completed_frame]
@[simp] theorem completed_traceEnable : (s.completed ins).traceEnable = s.traceEnable := by rw [completed_frame]
@[simp] theorem completed_soundEnable : (s.completed ins).soundEnable = s.soundEnable := by rw [completed_frame]
@[simp] theorem completed_rndInput : (s.completed ins).rndInput = s.rndInput := by rw [completed_frame]
@[simp] theorem completed_events : (s.completed ins).events = s.events := by rw [completed_frame]

@[simp] theorem completed_mem_font : (s.completed ins).mem.font = s.mem.font := by
  cases ins with
  | ldB | storeRegs => exact Memory.putBytes_font _ _ _
  | _ => rfl

end

section
variable {s : State} {ins : Instr}

/-- The registers, by how often the rule writes one: once, twice (a flag too, R81), or V0..VX (R99). -/
theorem completed_reg {r : RegIx} (h : ¬ mayWriteReg ins r) : (s.completed ins).reg r = s.reg r := by
  cases ins with
  | ldImm | addImm | ldReg | rnd | ldVxDT | addI | drw => exact State.reg_setReg_other s _ h
  | orReg | andReg | xorReg | addReg | subReg | shr | subn | shl =>
    obtain ⟨hx, hVF⟩ := not_or.1 h
    simp only [State.completed, exec, nextOr, execOrReg, execAndReg, execXorReg, execAddReg, execSubReg, execShr,
      execSubn, execShl, logicOp, flagThenResult, State.advance_reg, State.reg_setReg_other _ _ hx,
      State.reg_setReg_other _ _ hVF]
  | ldVxK x =>
    simp only [State.completed]
    cases lastPressed s with
    | none => rfl
    | some k => exact State.reg_setReg_other s _ h
  | loadRegs x => exact (regsLoaded_reg s x r).trans (if_neg h)
  | _ => rfl

theorem completed_stack (h : ∀ nnn, ins ≠ .call nnn) : (s.completed ins).stack = s.stack := by
  cases ins with
  | call nnn => exact absurd rfl (h nnn)
  | _ => rfl

theorem completed_sp (hcall : ∀ nnn, ins ≠ .call nnn) (hret : ins ≠ .ret) : (s.completed ins).sp = s.sp := by
  cases ins with
  | call nnn => exact absurd rfl (hcall nnn)
  | ret => exact absurd rfl hret
  | _ => rfl

theorem completed_mem (hldB : ∀ x, ins ≠ .ldB x) (hstore : ∀ x, ins ≠ .storeRegs x) :
    (s.completed ins).mem = s.mem := by
  cases ins with
  | ldB x => exact absurd rfl (hldB x)
  | storeRegs x => exact absurd rfl (hstore x)
  | _ => rfl

theorem completed_fb (hcls : ins ≠ .cls) (hdrw : ∀ x y n, ins ≠ .drw x y n) : (s.completed ins).fb = s.fb := by
  cases ins with
  | cls => exact absurd rfl hcls
  | drw x y n => exact absurd rfl (hdrw x y n)
  | _ => rfl

theorem completed_i (h : ¬ writesI ins) : (s.completed ins).i = s.i := by
  cases ins with
  | ldI | addI | ldF | storeRegs | loadRegs => exact absurd trivial h
  | _ => rfl

theorem completed_dt (h : ∀ x, ins ≠ .ldDTVx x) : (s.completed ins).dt = s.dt := by
  cases ins with
  | ldDTVx x => exact absurd rfl (h x)
  | _ => rfl

theorem completed_st (h : ∀ x, ins ≠ .ldSTVx x) : (s.completed ins).st = s.st := by
  cases ins with
  | ldSTVx x => exact absurd rfl (h x)
  | _ => rfl

end

/-- The instructions that write the framebuffer (R26). -/
def draws : Instr → Bool
  | .cls | .drw _ _ _ => true
  | _ => false

theorem draws_eq_true_iff (ins : Instr) : draws ins = true ↔ ins = .cls ∨ ∃ x y n, ins = .drw x y n := by
  cases ins <;> simp [draws]

/-- draw_flag is set by a draw and never cleared. -/
@[simp] theorem completed_drawFlag (s : State) (ins : Instr) :
    (s.completed ins).drawFlag = (draws ins || s.drawFlag) := by
  cases ins <;> rfl

/-! ## The statements -/

/-- Settles O47: a fault writes no register, a completed instruction only those of its rule. -/
theorem otherRegistersKeepTheirValue : Obligations.OtherRegistersKeepTheirValue := by
  intro ins s t r h hr
  exact exec_next_keeps (P := fun t => t.reg r = s.reg r) h (fun _ _ _ => rfl) (completed_reg hr)

/-- Settles O48: a fault writes neither, and of the completed instructions only the two. -/
theorem onlyCallAndReturnTouchTheStack : Obligations.OnlyCallAndReturnTouchTheStack := by
  intro ins s t h hcall
  exact exec_next_keeps (P := fun t => t.stack = s.stack ∧ (ins ≠ .ret → t.sp = s.sp)) h
    (fun _ _ _ => ⟨rfl, fun _ => rfl⟩) ⟨completed_stack hcall, completed_sp hcall⟩

/-- Settles O49: a fault writes no byte, and of the completed instructions only the two stores do. -/
theorem onlyStoresWriteMemory : Obligations.OnlyStoresWriteMemory := by
  intro ins s t h
  refine ⟨exec_next_keeps (P := fun t => t.mem.font = s.mem.font) h (fun _ _ _ => rfl) (completed_mem_font s ins),
    fun hldB hstore => ?_⟩
  have hmem : t.mem = s.mem :=
    exec_next_keeps (P := fun t => t.mem = s.mem) h (fun _ _ _ => rfl) (completed_mem hldB hstore)
  exact ⟨hmem, fun a => congrArg (·.get a) hmem⟩

/-- Settles O50: a completed 00E0 or DXYN sets draw_flag, and a fault leaves the display and the flag. -/
theorem onlyClearAndDrawTouchTheDisplay : Obligations.OnlyClearAndDrawTouchTheDisplay := by
  intro ins s t h
  obtain ⟨_, _, -, rfl⟩ | ⟨-, rfl⟩ := exec_next_cases h
  · exact ⟨fun _ => ⟨rfl, rfl⟩, fun _ _ hhalt => Bool.noConfusion hhalt, id⟩
  · refine ⟨fun ⟨hcls, hdrw⟩ => ⟨completed_fb hcls hdrw, ?_⟩, fun hdraws _ _ => ?_, fun hset => ?_⟩
    · have hno : draws ins = false := Bool.eq_false_iff.2 fun hdraws =>
        ((draws_eq_true_iff ins).1 hdraws).elim hcls fun ⟨x, y, n, h⟩ => hdrw x y n h
      simp [hno]
    · simp [(draws_eq_true_iff ins).2 hdraws]
    · simp [hset]

/-- Settles O51: a fault writes none of these, and a completed instruction only those of its rule. -/
theorem onlyTheListedInstructionsWriteIAndTimers : Obligations.OnlyTheListedInstructionsWriteIAndTimers := by
  intro ins s t h
  obtain ⟨_, _, -, rfl⟩ | ⟨-, rfl⟩ := exec_next_cases h
  · exact ⟨fun _ => rfl, fun _ => rfl, fun _ => rfl, rfl, rfl, rfl, rfl, rfl⟩
  · exact ⟨completed_i, completed_dt, completed_st, completed_keys s ins, completed_phase s ins,
      completed_traceEnable s ins, completed_soundEnable s ins, completed_rndInput s ins⟩

end Sys2Proof.Machine
end

section
/-! Decoding and encoding (spec/30_encoding.md): each inverts the other, every word is of at most one row of R58, the
UNKNOWN words are those of R59's ranges, and a disassembled line assembles to its instruction (R62). -/

namespace Sys2Proof

open Sys2Proof.Machine

/-! ## The decoder on an instruction's word -/

/-- By the format of the instruction's word: its fields are read back, and they pick the instruction's own branch. -/
@[simp] theorem decode_encode (ins : Instr) : decode (encode ins) = some ins := by
  cases ins with
  | cls | ret => rfl
  | jp | call | ldI | jpV0 => simp [encode, decode]
  | seImm | sneImm | ldImm | addImm | rnd => simp [encode, decode]
  | seReg | sneReg | drw => simp [encode, decode]
  | ldReg | orReg | andReg | xorReg | addReg | subReg | shr | subn | shl => simp [encode, decode, decodeFamily8]
  | skp | sknp => simp [encode, decode]
  | ldVxDT | ldVxK | ldDTVx | ldSTVx | addI | ldF | ldB | storeRegs | loadRegs =>
    simp [encode, decode, decodeFamilyF]

theorem decodeBytes_bytesOfWord {w : Word} {ins : Instr} (h : decode w = some ins) (rest : List Byte) :
    decodeBytes (bytesOfWord w ++ rest) = .ok (ins, rest) := by
  simp only [bytesOfWord, List.cons_append, List.nil_append, decodeBytes, wordOfBytes_bytes, h]

@[simp] theorem tableWord_toNat (w : Word) : tableWord 16 w.toNat = w := by
  rw [tableWord, Nat.mod_eq_of_lt w.isLt, BitVec.ofNat_toNat, BitVec.setWidth_eq]

/-- Settles O4: the word by its format; its two stored bytes and its table number are that word again. -/
theorem decodeInvertsEncode : Obligations.DecodeInvertsEncode := by
  intro ins
  have hbytes := decodeBytes_bytesOfWord (decode_encode ins)
  refine ⟨decode_encode ins, ?_, hbytes⟩
  rw [decodeTableWord, tableWord_toNat, ← List.append_nil (bytesOfWord _), hbytes]

/-- Settles O5: the families in turn, in `encode_of_decode`. -/
theorem encodeInvertsDecode : Obligations.EncodeInvertsDecode := fun _ _ => encode_of_decode

/-- Settles O8: each word is evaluated. -/
theorem sampleWordsDecode : Obligations.SampleWordsDecode := by
  unfold Obligations.SampleWordsDecode
  decide

/-! ## The rows of R58 -/

theorem rowDecodes_rnd : rowDecodes 0xC000 0xF000 (fun w => .rnd (opX w) (opNN w)) :=
  rowDecodes_of_family (fam := 0xC#4) (by decide) fun w hfam => by simp [decode, hfam]

/-- The words of a row decode to instructions with the row's number. -/
def Row.Decodes (r : Row) : Prop :=
  ∃ f : Word → Instr, rowDecodes r.bits r.mask f ∧ ∀ w, (f w).rowNumber = r.number

theorem decodes_of_mem_low : ∀ r ∈ opcodeMapLow, r.Decodes := by
  simp only [opcodeMapLow, List.forall_mem_cons]
  exact ⟨⟨_, rowDecodes_cls, fun _ => rfl⟩, ⟨_, rowDecodes_ret, fun _ => rfl⟩, ⟨_, rowDecodes_jp, fun _ => rfl⟩,
    ⟨_, rowDecodes_call, fun _ => rfl⟩, ⟨_, rowDecodes_seImm, fun _ => rfl⟩, ⟨_, rowDecodes_sneImm, fun _ => rfl⟩,
    ⟨_, rowDecodes_seReg, fun _ => rfl⟩, ⟨_, rowDecodes_ldImm, fun _ => rfl⟩, ⟨_, rowDecodes_addImm, fun _ => rfl⟩,
    ⟨_, rowDecodes_ldReg, fun _ => rfl⟩, ⟨_, rowDecodes_orReg, fun _ => rfl⟩, nofun⟩

theorem decodes_of_mem_mid : ∀ r ∈ opcodeMapMid, r.Decodes := by
  simp only [opcodeMapMid, List.forall_mem_cons]
  exact ⟨⟨_, rowDecodes_andReg, fun _ => rfl⟩, ⟨_, rowDecodes_xorReg, fun _ => rfl⟩,
    ⟨_, rowDecodes_addReg, fun _ => rfl⟩, ⟨_, rowDecodes_subReg, fun _ => rfl⟩, ⟨_, rowDecodes_shr, fun _ => rfl⟩,
    ⟨_, rowDecodes_subn, fun _ => rfl⟩, ⟨_, rowDecodes_shl, fun _ => rfl⟩, ⟨_, rowDecodes_sneReg, fun _ => rfl⟩,
    ⟨_, rowDecodes_ldI, fun _ => rfl⟩, ⟨_, rowDecodes_jpV0, fun _ => rfl⟩, ⟨_, rowDecodes_rnd, fun _ => rfl⟩,
    ⟨_, rowDecodes_drw, fun _ => rfl⟩, nofun⟩

theorem decodes_of_mem_high : ∀ r ∈ opcodeMapHigh, r.Decodes := by
  simp only [opcodeMapHigh, List.forall_mem_cons]
  exact ⟨⟨_, rowDecodes_skp, fun _ => rfl⟩, ⟨_, rowDecodes_sknp, fun _ => rfl⟩, ⟨_, rowDecodes_ldVxDT, fun _ => rfl⟩,
    ⟨_, rowDecodes_ldVxK, fun _ => rfl⟩, ⟨_, rowDecodes_ldDTVx, fun _ => rfl⟩, ⟨_, rowDecodes_ldSTVx, fun _ => rfl⟩,
    ⟨_, rowDecodes_addI, fun _ => rfl⟩, ⟨_, rowDecodes_ldF, fun _ => rfl⟩, ⟨_, rowDecodes_ldB, fun _ => rfl⟩,
    ⟨_, rowDecodes_storeRegs, fun _ => rfl⟩, ⟨_, rowDecodes_loadRegs, fun _ => rfl⟩, nofun⟩

theorem decodes_of_mem_opcodeMap {r : Row} (h : r ∈ opcodeMap) : r.Decodes := by
  obtain (h | h) | h : (r ∈ opcodeMapLow ∨ r ∈ opcodeMapMid) ∨ r ∈ opcodeMapHigh := by
    simpa [opcodeMap, or_assoc] using h
  · exact decodes_of_mem_low r h
  · exact decodes_of_mem_mid r h
  · exact decodes_of_mem_high r h

/-- A word of a row decodes to an instruction of that row. -/
theorem decode_of_admits {r : Row} (hr : r ∈ opcodeMap) {w : Word} (h : r.admits w = true) :
    ∃ ins, decode w = some ins ∧ ins.rowNumber = r.number := by
  obtain ⟨f, hf, hnum⟩ := decodes_of_mem_opcodeMap hr
  exact ⟨f w, hf w (by simpa [Row.admits] using h), hnum w⟩

/-- The rows are numbered 1 to 34, so a row is known by its number. -/
theorem row_eq_of_number_eq {r r' : Row} (hr : r ∈ opcodeMap) (hr' : r' ∈ opcodeMap) (h : r.number = r'.number) :
    r = r' := by
  have hnodup : (opcodeMap.map Row.number).Nodup := List.nodup_range' (s := 1) (n := 34)
  exact List.inj_on_of_nodup_map hnodup hr hr' h

theorem encodeRow (ins : Instr) : Laws.EncodeRow.Statement ins := by
  open Laws.EncodeRow in
  cases ins
  exacts [cls, ret, jp _, call _, seImm _ _, sneImm _ _, seReg _ _, ldImm _ _, addImm _ _, ldReg _ _, orReg _ _,
    andReg _ _, xorReg _ _, addReg _ _, subReg _ _, shr _ _, subn _ _, shl _ _, sneReg _ _, ldI _, jpV0 _, rnd _ _,
    drw _ _ _, skp _, sknp _, ldVxDT _, ldVxK _, ldDTVx _, ldSTVx _, addI _, ldF _, ldB _, storeRegs _, loadRegs _]

/-- Settles O6: a word of a row is decoded to an instruction of it; a decoded word is of its instruction's row, and of
no other, since the numbers differ. -/
theorem everyWordIsUnknownOrOfOneRow : Obligations.EveryWordIsUnknownOrOfOneRow := by
  intro w
  cases hd : decode w with
  | none =>
    refine .inl ⟨rfl, fun r hr => Bool.eq_false_iff.2 fun hadmits => ?_⟩
    obtain ⟨ins, hins, -⟩ := decode_of_admits hr hadmits
    simp [hd] at hins
  | some ins =>
    obtain ⟨r, hrow, hnum, hadmits⟩ := encodeRow ins
    have hr : r ∈ opcodeMap := List.mem_of_getElem? hrow
    rw [encode_of_decode hd] at hadmits
    refine .inr ⟨ins, r, rfl, hr, hnum, hadmits, fun r' hr' hadmits' => ?_⟩
    obtain ⟨ins', hins', hnum'⟩ := decode_of_admits hr' hadmits'
    obtain rfl : ins = ins' := Option.some.inj (hd.symm.trans hins')
    exact row_eq_of_number_eq hr' hr (hnum'.symm.trans hnum.symm)

/-! ## The UNKNOWN words (R59) -/

theorem decodeFamily8_eq_none_iff (x y : RegIx) (fn : Nibble) : decodeFamily8 x y fn.toNat = none ↔
    fn ∈ [0x8#4, 0x9#4, 0xA#4, 0xB#4, 0xC#4, 0xD#4, 0xF#4] := by
  unfold decodeFamily8
  split
  case h_10 =>
    have hlt := fn.isLt
    simp only [List.mem_cons, List.not_mem_nil, or_false, true_iff, ← BitVec.toNat_inj, BitVec.toNat_ofNat]
    grind
  all_goals
    next hfn =>
    obtain rfl := eq_ofNat_of_toNat_eq hfn
    simp

theorem decodeFamilyF_eq_none_iff (x : RegIx) (fn8 : Byte) : decodeFamilyF x fn8.toNat = none ↔
    fn8 ∉ [0x07#8, 0x0A#8, 0x15#8, 0x18#8, 0x1E#8, 0x29#8, 0x33#8, 0x55#8, 0x65#8] := by
  unfold decodeFamilyF
  split
  case h_10 =>
    simp only [List.mem_cons, List.not_mem_nil, or_false, true_iff, ← BitVec.toNat_inj, BitVec.toNat_ofNat]
    grind
  all_goals
    next hfn8 =>
    obtain rfl := eq_ofNat_of_toNat_eq hfn8
    simp

/-- Words of one family with one NNN are the same word. -/
theorem opNNN_eq_iff_of_family {w v : Word} (h : opFam w = opFam v) : opNNN w = opNNN v ↔ w = v := by
  refine ⟨fun hnnn => ?_, fun hwv => hwv ▸ rfl⟩
  rw [← word_FA w, ← word_FA v, h, hnnn]

/-- Settles O7: the families in turn; those not named in R59 have no UNKNOWN word. -/
theorem unknownWordsAreTheListedRanges : Obligations.UnknownWordsAreTheListedRanges := by
  intro w
  unfold decode
  split
  case h_1 hfam =>
    have hw : opFam w = 0x0#4 := eq_ofNat_of_toNat_eq hfam
    have hcls : opNNN w = 0x0E0#12 ↔ w = 0x00E0#16 := opNNN_eq_iff_of_family (v := 0x00E0#16) hw
    have hret : opNNN w = 0x0EE#12 ↔ w = 0x00EE#16 := opNNN_eq_iff_of_family (v := 0x00EE#16) hw
    simp only [hcls, hret, hw]
    split_ifs <;> simp [*]
  case h_6 hfam | h_10 hfam =>
    rw [ite_eq_right_iff]
    simp [eq_ofNat_of_toNat_eq hfam]
  case h_9 hfam =>
    rw [decodeFamily8_eq_none_iff]
    simp [eq_ofNat_of_toNat_eq hfam]
  case h_15 hfam =>
    rw [eq_ofNat_of_toNat_eq hfam]
    split_ifs <;> simp [*]
  case h_16 =>
    have hfam : (opFam w).toNat = 15 := by
      have hlt := (opFam w).isLt
      grind
    rw [decodeFamilyF_eq_none_iff]
    simp [eq_ofNat_of_toNat_eq hfam]
  all_goals
    next hfam =>
    simp [eq_ofNat_of_toNat_eq hfam]

/-! ## The assembler's lines (R62) -/

@[simp] theorem regField_toNat (x : RegIx) : regField x.toNat = some x := by
  simp [regField, x.isLt]

@[simp] theorem byteField_toNat (k : Byte) : byteField k.toNat = some k := by
  simp [byteField, k.isLt]

@[simp] theorem addrField_toNat (a : Addr) : addrField a.toNat = some a := by
  simp [addrField, a.isLt]

@[simp] theorem nibbleField_toNat (n : Nibble) : nibbleField n.toNat = some n := by
  simp [nibbleField, n.isLt]

@[simp] theorem lineXNN_toNat (f : RegIx → Byte → Instr) (x : RegIx) (k : Byte) :
    lineXNN f x.toNat k.toNat = some (f x k) := by
  simp [lineXNN]

@[simp] theorem lineXY_toNat (f : RegIx → RegIx → Instr) (x y : RegIx) :
    lineXY f x.toNat y.toNat = some (f x y) := by
  simp [lineXY]

/-- The line written for an instruction assembles to it: no operand is out of range. -/
theorem toInstr_toLine (ins : Instr) : ins.toLine.toInstr = some ins := by
  cases ins <;> simp [Instr.toLine, Line.toInstr]

theorem disassemble_of_decode {w : Word} {ins : Instr} (h : decode w = some ins) : disassemble w = .inl ins.toLine := by
  rw [disassemble, h]

theorem disassemble_of_unknown {w : Word} (h : decode w = none) : disassemble w = .inr w := by
  rw [disassemble, h]

/-- Settles O9: the decoder gives the instruction of a word back, and its line has every operand in range. -/
theorem assemblerLineRoundTrip : Obligations.AssemblerLineRoundTrip :=
  ⟨fun ins => ⟨disassemble_of_decode (decode_encode ins), toInstr_toLine ins⟩, fun _ => disassemble_of_unknown,
    fun x => ⟨lineXY_toNat .shr x 0, lineXY_toNat .shl x 0⟩⟩

end Sys2Proof
end

section
/-! The step (spec/30_encoding.md R64, spec/60_exceptions.md): what a running block's step answers in each of its four
cases, when it halts, how it ticks, and a block that stays in place for any number of steps (R107, R133). -/

namespace Sys2Proof.Machine

/-! ## The four cases of a running step -/

theorem completed_atExecute_halted (s : State) (w : Word) (ins : Instr) :
    ((s.atExecute w).completed ins).halted = s.halted := completed_halted _ ins

/-- A state that does not fault ticks at the end of its step (R118). -/
theorem endStep_of_not_halted {t : State} (h : t.halted = false) : endStep (.next t) = .next (tick t) := by
  simp [endStep, h]

section
variable {s : State}

theorem step_eq_endStep {ins : Instr} (hrun : s.running) (hpc : s.pc.toNat ≤ 4094)
    (hd : decode s.wordAtPc = some ins) : step s = endStep (exec ins (s.atExecute s.wordAtPc)) := by
  obtain ⟨hh, hp⟩ := hrun
  rw [step_of_decode hp hh (fetch_eq_wordAtPc hpc) hd, traceStage_beginStep]

theorem step_of_completed {ins : Instr} (hrun : s.running) (hpc : s.pc.toNat ≤ 4094)
    (hd : decode s.wordAtPc = some ins) (hf : faultOf ins s = none) :
    step s = .next (tick ((s.atExecute s.wordAtPc).completed ins)) := by
  rw [step_eq_endStep hrun hpc hd, exec_of_faultOf_none ((faultOf_atExecute ins s _).trans hf),
    endStep_of_not_halted ((completed_atExecute_halted s _ ins).trans hrun.1)]

/-- What a running block's step answers: the fetch's fault (R55), an UNKNOWN word's event (R107), the instruction's
fault (R109), or the instruction and the tick (R64). -/
theorem step_of_running (hrun : s.running) :
    (4094 < s.pc.toNat ∧ step s = .next (fetchFault (beginStep s))) ∨
    (s.pc.toNat ≤ 4094 ∧ decode s.wordAtPc = none ∧
      step s = .next (tick (unknownStage s.wordAtPc (s.atExecute s.wordAtPc)))) ∨
    (∃ ins cause info, s.pc.toNat ≤ 4094 ∧ decode s.wordAtPc = some ins ∧ faultOf ins s = some (cause, info) ∧
      step s = .next ((s.atExecute s.wordAtPc).faulted cause (some s.wordAtPc) info)) ∨
    (∃ ins, s.pc.toNat ≤ 4094 ∧ decode s.wordAtPc = some ins ∧ faultOf ins s = none ∧
      step s = .next (tick ((s.atExecute s.wordAtPc).completed ins))) := by
  obtain hpc | hpc := lt_or_ge 4094 s.pc.toNat
  · exact .inl ⟨hpc, step_of_fetchFault hrun hpc⟩
  cases hd : decode s.wordAtPc with
  | none => exact .inr (.inl ⟨hpc, rfl, step_of_unknownWord hrun hpc hd⟩)
  | some ins =>
    cases hf : faultOf ins s with
    | none => exact .inr (.inr (.inr ⟨ins, hpc, rfl, hf, step_of_completed hrun hpc hd hf⟩))
    | some f =>
      obtain ⟨cause, info⟩ := f
      exact .inr (.inr (.inl ⟨ins, cause, info, hpc, rfl, hf, step_of_instructionFault hrun hpc hd hf⟩))

end

/-- A block that is not poisoned is halted or running. -/
theorem halted_or_running {s : State} (hp : s.phase ≠ .poisoned) : s.halted = true ∨ s.running := by
  cases hh : s.halted with
  | true => exact .inl rfl
  | false => exact .inr ⟨hh, hp⟩

/-! ## When a step answers, and when it halts -/

/-- Settles O15: a halted block idles, and each of the four cases of a running one answers a next state. -/
theorem stepAnswersNextUnlessPoisoned : Obligations.StepAnswersNextUnlessPoisoned := by
  refine fun s => ⟨step_of_poisoned, fun hp => ?_⟩
  obtain hh | hrun := halted_or_running hp
  · exact ⟨_, step_of_halted hp hh⟩
  · obtain ⟨-, h⟩ | ⟨-, -, h⟩ | ⟨_, _, _, -, -, -, h⟩ | ⟨_, -, -, -, h⟩ := step_of_running hrun
    all_goals exact ⟨_, h⟩

@[simp] theorem faulted_halted (s : State) (cause : Fault) (opcode : Option Word) (info : Option Nat) :
    (s.faulted cause opcode info).halted = true := rfl

/-- Settles O16: an instruction faults on R108's list and completes off it; of a step's four cases the faults halt. -/
theorem faultListIsComplete : Obligations.FaultListIsComplete := by
  refine ⟨fun ins s hh => ⟨fun _ _ => exec_of_faultOf, fun hf => ?_⟩, fun s hrun => ?_⟩
  · exact ⟨_, exec_of_faultOf_none hf, (completed_halted s ins).trans hh⟩
  obtain ⟨hpc, h⟩ | ⟨hpc, hd, h⟩ | ⟨ins, cause, info, -, hd, hf, h⟩ | ⟨ins, hpc, hd, hf, h⟩ := step_of_running hrun
  · exact ⟨_, h, by simp [hpc]⟩
  · have hh : (tick (unknownStage s.wordAtPc (s.atExecute s.wordAtPc))).halted = false := hrun.1
    exact ⟨_, h, by simp [hh, hd, hpc]⟩
  · exact ⟨_, h, by simp [hd, hf]⟩
  · have hh : (tick ((s.atExecute s.wordAtPc).completed ins)).halted = false :=
      (completed_atExecute_halted s _ ins).trans hrun.1
    exact ⟨_, h, by simp [hh, hd, hf, hpc]⟩

/-! ## The tick -/

theorem countDown_eq_ite (b : Byte) : countDown b = if 0 < b.toNat then b - 1 else b := by
  by_cases hb : b = 0
  · subst hb
    rfl
  · rw [countDown, if_neg hb, if_pos ((timerRuns_iff b).1 (bne_iff_ne.2 hb))]

/-- The tick as R118 and R119 write it, on numbers. -/
theorem tick_eq (s : State) : tick s = { s with
    soundActive := decide (0 < s.st.toNat)
    events := if s.soundEnable = true ∧ 0 < s.st.toNat then s.events ++ [.alert] else s.events
    dt := if 0 < s.dt.toNat then s.dt - 1 else s.dt
    st := if 0 < s.st.toNat then s.st - 1 else s.st } := by
  have hruns : (s.st != 0) = decide (0 < s.st.toNat) := by
    rw [Bool.eq_iff_iff, timerRuns_iff, decide_eq_true_iff]
  simp only [tick, countDown_eq_ite, hruns, Bool.and_eq_true, decide_eq_true_eq]

/-- Settles O10: the step is the instruction's answer in the state after the trace, and the tick if it did not fault. -/
theorem stepRunsTheDecodedInstruction : Obligations.StepRunsTheDecodedInstruction := by
  intro s t ins hrun hpc hd hexec
  have hexec' : exec ins (s.atExecute s.wordAtPc) = .next t := hexec
  rw [step_eq_endStep hrun hpc hd, hexec', endStep, tick_eq]

/-- Settles O17: a step that does not halt ends with the tick, of timers its instruction left. -/
theorem timersCountDownOncePerStep : Obligations.TimersCountDownOncePerStep := by
  intro s t hrun hstep hh
  obtain ⟨-, h⟩ | ⟨-, -, h⟩ | ⟨_, _, _, -, -, -, h⟩ | ⟨ins, -, hd, -, h⟩ := step_of_running hrun <;>
    obtain rfl := Host.Outcome.next.inj (h.symm.trans hstep)
  · simp at hh
  · exact ⟨fun _ => countDown_toNat s.dt, fun _ => countDown_toNat s.st⟩
  · simp at hh
  · rw [hd]
    refine ⟨fun hne => ?_, fun hne => ?_⟩
    · rw [tick_dt, countDown_toNat, completed_dt fun x hx => hne x (congrArg some hx)]
      rfl
    · rw [tick_st, countDown_toNat, completed_st fun x hx => hne x (congrArg some hx)]
      rfl

/-- The trace is no alert, so a step's alert is its tick's. -/
theorem alert_not_mem_atExecute_events (s : State) (w : Word) : .alert ∉ (s.atExecute w).events := by
  simp only [State.atExecute, State.traceOf]
  split <;> simp

/-- Settles O41: each of the three completes, and the tick that follows sees the timer it wrote. -/
theorem timerInstructionsAreTickedInTheirStep : Obligations.TimerInstructionsAreTickedInTheirStep := by
  intro s x hrun hpc
  refine ⟨fun hd => ?_, fun hd => ?_, fun hd => ?_⟩
  · exact ⟨_, step_of_completed hrun hpc hd rfl, State.reg_setReg_same _ x s.dt, countDown_toNat s.dt⟩
  · exact ⟨_, step_of_completed hrun hpc hd rfl, countDown_toNat (s.reg x)⟩
  · refine ⟨_, step_of_completed hrun hpc hd rfl, countDown_toNat (s.reg x), timerRuns_iff (s.reg x), ?_⟩
    rw [tick_events_eq_append, completed_events, List.mem_append, or_iff_right (alert_not_mem_atExecute_events s _),
      List.mem_ite_nil_right, and_iff_left (List.mem_singleton.2 rfl)]
    exact Iff.rfl

/-! ## Staying in place -/

/-- From `s`, n steps that only tick end in `t`: the timers are n lower, and nothing else but the outputs and the load
phase is different (R107, R133). -/
def OnlyTicked (n : Nat) (s t : State) : Prop :=
  t = { s with dt := t.dt, st := t.st, soundActive := t.soundActive, events := t.events, phase := .run } ∧
    t.dt.toNat = s.dt.toNat - n ∧ t.st.toNat = s.st.toNat - n

theorem OnlyTicked.trans {m n : Nat} {s t u : State} (h : OnlyTicked m s t) (h' : OnlyTicked n t u) :
    OnlyTicked (m + n) s u := by
  obtain ⟨hframe, hdt, hst⟩ := h
  obtain ⟨hframe', hdt', hst'⟩ := h'
  refine ⟨?_, by omega, by omega⟩
  rw [hframe', hframe]

/-- `u` is a running block that will fetch what `s` fetches and sees the same keys. -/
structure InPlace (s u : State) : Prop where
  running : u.running
  pc : u.pc = s.pc
  mem : u.mem = s.mem
  keys : u.keys = s.keys

theorem InPlace.refl {s : State} (h : s.running) : InPlace s s := ⟨h, rfl, rfl, rfl⟩

theorem InPlace.wordAtPc {s u : State} (h : InPlace s u) : u.wordAtPc = s.wordAtPc := by
  simp only [State.wordAtPc, State.byteAt, h.pc, h.mem]

theorem InPlace.onlyTicked {s u t : State} {n : Nat} (h : InPlace s u) (ht : OnlyTicked n u t) : InPlace s t := by
  obtain ⟨hframe, -, -⟩ := ht
  rw [hframe]
  exact ⟨⟨h.running.1, nofun⟩, h.pc, h.mem, h.keys⟩

theorem run_succ_of_step {s t : State} (h : step s = .next t) (n : Nat) :
    Host.Core.run Sys2Proof.core (n + 1) s = Host.Core.run Sys2Proof.core n t := by
  have hcore : Sys2Proof.core.step s = .next t := h
  simp only [Host.Core.run, hcore]

/-- Where every step in the place of `s` only ticks, so does a run from there; `E` is what each step, the last too,
gives. -/
theorem run_onlyTicked {s : State} {E : State → Prop}
    (hstep : ∀ u, InPlace s u → ∃ t, step u = .next t ∧ OnlyTicked 1 u t ∧ E t) (n : Nat) {u : State}
    (hu : InPlace s u) : ∃ t, Host.Core.run Sys2Proof.core (n + 1) u = .next t ∧ OnlyTicked (n + 1) u t ∧ E t := by
  obtain ⟨t, ht, htick, hE⟩ := hstep u hu
  induction n generalizing u t with
  | zero => exact ⟨t, run_succ_of_step ht 0, htick, hE⟩
  | succ n ih =>
    have htplace := hu.onlyTicked htick
    obtain ⟨t', ht', htick', hE'⟩ := hstep t htplace
    obtain ⟨v, hrun, hticks, hEv⟩ := ih htplace t' ht' htick' hE'
    refine ⟨v, (run_succ_of_step ht _).trans hrun, ?_, hEv⟩
    rw [Nat.add_comm]
    exact htick.trans hticks

/-- Settles O12: each step finds the word again, emits the event and ticks. -/
theorem unknownWordStepsInPlaceForEver : Obligations.UnknownWordStepsInPlaceForEver := by
  intro s n hrun hpc hd
  have hstep (u : State) (hu : InPlace s u) : ∃ t, step u = .next t ∧ OnlyTicked 1 u t ∧
      .unknownOpcode s.pc s.wordAtPc ∈ t.events := by
    refine ⟨_, step_of_unknownWord hu.running (hu.pc ▸ hpc) (hu.wordAtPc ▸ hd),
      ⟨rfl, countDown_toNat _, countDown_toNat _⟩, ?_⟩
    rw [tick_events_eq_append, unknownStage_events, ← hu.pc, ← hu.wordAtPc]
    simp [State.atExecute]
  obtain ⟨t, ht, ⟨hframe, hdt, hst⟩, hevent⟩ := run_onlyTicked hstep n (.refl hrun)
  exact ⟨t, ht, hevent, hframe, fun a => by rw [hframe]; rfl, hdt, hst⟩

/-- A block whose every step in the place of `s` completes an instruction that changes nothing only ticks. -/
theorem run_onlyTicked_of_completed {s : State} {ins : Instr} (hrun : s.running) (hpc : s.pc.toNat ≤ 4094)
    (hd : decode s.wordAtPc = some ins)
    (hf : ∀ u, InPlace s u → faultOf ins u = none)
    (hsame : ∀ u, InPlace s u → (u.atExecute u.wordAtPc).completed ins = u.atExecute u.wordAtPc) (n : Nat) :
    ∃ t, Host.Core.run Sys2Proof.core (n + 1) s = .next t ∧ OnlyTicked (n + 1) s t := by
  have hstep (u : State) (hu : InPlace s u) : ∃ t, step u = .next t ∧ OnlyTicked 1 u t ∧ True := by
    refine ⟨_, step_of_completed hu.running (hu.pc ▸ hpc) (hu.wordAtPc ▸ hd) (hf u hu), ?_, trivial⟩
    rw [hsame u hu]
    exact ⟨rfl, countDown_toNat _, countDown_toNat _⟩
  obtain ⟨t, ht, htick, -⟩ := run_onlyTicked hstep n (.refl hrun)
  exact ⟨t, ht, htick⟩

/-- Settles O18: the jump's target is PC, so the jump changes nothing. -/
theorem selfJumpOnlyTicks : Obligations.SelfJumpOnlyTicks := by
  intro s nnn n hrun hpc hnnn hd
  have htarget : addrOperand nnn = s.pc := BitVec.eq_of_toNat_eq ((addrOperand_toNat nnn).trans hnnn)
  refine run_onlyTicked_of_completed hrun hpc hd (fun _ _ => rfl) (fun u hu => ?_) n
  change (u.atExecute u.wordAtPc).setPc (addrOperand nnn) = u.atExecute u.wordAtPc
  rw [htarget, ← hu.pc]
  rfl

/-- Settles O43: with no key down the key wait changes nothing. -/
theorem keyWaitOnlyTicks : Obligations.KeyWaitOnlyTicks := by
  intro s x n hrun hpc hd hkeys
  refine run_onlyTicked_of_completed hrun hpc hd (fun _ _ => rfl) (fun u hu => ?_) n
  have hnone : lastPressed (u.atExecute u.wordAtPc) = none :=
    lastPressed_of_no_key fun k hk => (congrArg (·.getD k false) hu.keys).trans (hkeys k hk)
  rw [State.completed, hnone]
  rfl

/-! ## The fields no meaning reads -/

/-- `s` with another draw_flag, other trace and sound inputs and other events. -/
def State.withUnread (s : State) (draw trace sound : Bool) (events : List Event) : State :=
  { s with drawFlag := draw, traceEnable := trace, soundEnable := sound, events := events }

section
variable (s : State) (draw trace sound : Bool) (events : List Event)

/-- What an instruction does to draw_flag does not depend on it; nothing else depends on it or on the other three. -/
theorem completed_withUnread (ins : Instr) : (s.withUnread draw trace sound events).completed ins =
    (s.completed ins).withUnread (draws ins || draw) trace sound events := by
  cases ins with
  | loadRegs x =>
    have hv : ((s.withUnread draw trace sound events).regsLoaded x).v = (s.regsLoaded x).v := regs_ext fun r => by
      simp only [regsLoaded_reg]
      rfl
    have hi : ((s.withUnread draw trace sound events).regsLoaded x).i = (s.regsLoaded x).i :=
      BitVec.eq_of_toNat_eq (by simp only [regsLoaded_i_toNat]; rfl)
    simp only [State.completed, hv, hi]
    rfl
  | _ => rfl

theorem faultOf_withUnread (ins : Instr) : faultOf ins (s.withUnread draw trace sound events) = faultOf ins s := by
  cases ins <;> rfl

end

/-- A step's answer, whatever the four fields held: `f` gives draw_flag, `g` the events, and the rest is the same. -/
theorem step_withUnread {s : State} (hp : s.phase ≠ .poisoned) : ∃ (t : State) (f : Bool → Bool)
    (g : Bool → Bool → List Event), ∀ draw trace sound events,
      step (s.withUnread draw trace sound events) = .next (t.withUnread (f draw) trace sound (g trace sound)) := by
  obtain hh | hrun := halted_or_running hp
  · exact ⟨idleStep s, id, fun _ _ => [], fun _ _ _ _ => step_of_halted hp hh⟩
  obtain ⟨hpc, -⟩ | ⟨hpc, hd, -⟩ | ⟨ins, cause, info, hpc, hd, hf, -⟩ | ⟨ins, hpc, hd, hf, -⟩ := step_of_running hrun
  · exact ⟨fetchFault (beginStep s), id, fun _ _ => (fetchFault (beginStep s)).events, fun _ _ _ _ =>
      step_of_fetchFault hrun hpc⟩
  · exact ⟨tick (unknownStage s.wordAtPc (s.atExecute s.wordAtPc)), id, fun trace sound =>
      (tick (unknownStage s.wordAtPc ((s.withUnread s.drawFlag trace sound s.events).atExecute s.wordAtPc))).events,
      fun _ _ _ _ => step_of_unknownWord hrun hpc hd⟩
  · exact ⟨(s.atExecute s.wordAtPc).faulted cause (some s.wordAtPc) info, id, fun trace sound =>
      (((s.withUnread s.drawFlag trace sound s.events).atExecute s.wordAtPc).faulted cause (some s.wordAtPc)
        info).events,
      fun _ _ _ _ => step_of_instructionFault hrun hpc hd ((faultOf_withUnread s _ _ _ _ ins).trans hf)⟩
  · refine ⟨tick ((s.atExecute s.wordAtPc).completed ins), (draws ins || ·), fun trace sound =>
      (tick (((s.atExecute s.wordAtPc).completed ins).withUnread false trace sound
        ((s.withUnread s.drawFlag trace sound s.events).traceOf s.wordAtPc))).events, fun draw trace sound events => ?_⟩
    have hf' := (faultOf_withUnread s draw trace sound events ins).trans hf
    refine (step_of_completed (s := s.withUnread draw trace sound events) hrun hpc hd hf').trans ?_
    exact congrArg (fun t => Host.Outcome.next (tick t))
      (completed_withUnread (s.atExecute s.wordAtPc) draw trace sound _ ins)

/-- Settles O52: the inputs come back in the answer, and pick its events. -/
theorem traceAndSoundInputsChangeNoState : Obligations.TraceAndSoundInputsChangeNoState := by
  intro s t trace sound h
  obtain ⟨t', f, g, hstep⟩ := step_withUnread (step_cases h).1
  obtain rfl := Host.Outcome.next.inj ((hstep s.drawFlag s.traceEnable s.soundEnable s.events).symm.trans h)
  exact ⟨_, hstep s.drawFlag trace sound s.events, rfl⟩

/-- Settles O53: draw_flag decides draw_flag alone. -/
theorem drawFlagIsNotObservable : Obligations.DrawFlagIsNotObservable := by
  intro s t draw h
  obtain ⟨t', f, g, hstep⟩ := step_withUnread (step_cases h).1
  obtain rfl := Host.Outcome.next.inj ((hstep s.drawFlag s.traceEnable s.soundEnable s.events).symm.trans h)
  exact ⟨_, hstep draw s.traceEnable s.soundEnable s.events, rfl⟩

end Sys2Proof.Machine
end

section
/-! The invariant (`State.Inv`): every step keeps it and reset meets it; the reset state (R34) and the host's operations
(R121, R128). -/

namespace Sys2Proof.Machine

/-! ## Memory, PC and the stack -/

/-- The part of the invariant that speaks of memory, PC and the stack. -/
structure State.Bounded (s : State) : Prop where
  memory : s.mem.wf
  pc : s.pc.toNat ≤ 4350
  stack : ∀ j (h : j < 16), s.stack[j].toNat ≤ 4094

theorem State.Inv.bounded {s : State} (h : s.Inv) : s.Bounded := ⟨h.memory, h.pcBound, h.stackBound⟩

theorem State.Bounded.inv_of_not_halted {s : State} (h : s.Bounded) (hh : s.halted = false) : s.Inv where
  memory := h.memory
  pcBound := h.pc
  stackBound := h.stack
  record r hr := by simp [State.halted, hr] at hh
  halted hh' := by simp [hh] at hh'

/-- A fault of R105's form keeps the bounds and leaves the record the invariant asks for. -/
theorem State.Bounded.inv_faulted {s : State} (h : s.Bounded) (hp : s.phase = .run) {cause : Fault}
    {opcode : Option Word} {info : Option Nat} (hwf : FaultRecord.wf ⟨cause, s.pc, opcode, info⟩) :
    (s.faulted cause opcode info).Inv where
  memory := h.memory
  pcBound := h.pc
  stackBound := h.stack
  record r hr := by
    obtain rfl := Option.some.inj hr
    exact ⟨rfl, hwf⟩
  halted _ := ⟨hp, rfl⟩

/-- What R108's list gives is of R105's form. -/
theorem wf_of_faultOf {s : State} {ins : Instr} {cause : Fault} {info : Option Nat}
    (h : faultOf ins s = some (cause, info)) (pc w : Word) : FaultRecord.wf ⟨cause, pc, some w, info⟩ := by
  cases ins with
  | ret | call =>
    obtain ⟨-, ⟨⟩⟩ := Option.ite_none_right_eq_some.1 h
    exact ⟨nofun, rfl⟩
  | skp x | sknp x =>
    obtain ⟨hno, ⟨⟩⟩ := Option.ite_none_right_eq_some.1 h
    exact ⟨nofun, _, rfl, hno, (s.reg x).isLt⟩
  | drw | ldB | storeRegs | loadRegs =>
    obtain ⟨-, ⟨⟩⟩ := Option.ite_none_right_eq_some.1 h
    exact ⟨nofun, _, rfl, le_max_right _ _⟩
  | _ => cases h

/-! ## A completed instruction keeps the bounds -/

theorem add_two_toNat_le {w : Word} (h : w.toNat ≤ 4094) : (w + 2).toNat ≤ 4350 := by
  simp only [BitVec.ofNat_eq_ofNat, BitVec.toNat_add, BitVec.toNat_ofNat]
  omega

theorem skipWhen_pc_le {s : State} (h : s.pc.toNat ≤ 4094) (c : Bool) : (s.skipWhen c).pc.toNat ≤ 4098 := by
  cases c <;> simp [State.skipWhen] <;> omega

section
variable {s : State}

theorem completed_mem_wf (h : s.mem.wf) (ins : Instr) : (s.completed ins).mem.wf := by
  cases ins with
  | ldB | storeRegs => exact Memory.wf_putBytes h _ _
  | _ => exact h

/-- The largest target is BNNN's, 4095 + 255 (R19); all others are at most four past an address that fetches. -/
theorem completed_pc_le (hpc : s.pc.toNat ≤ 4094) (hstack : ∀ j (h : j < 16), s.stack[j].toNat ≤ 4094) (ins : Instr) :
    (s.completed ins).pc.toNat ≤ 4350 := by
  have hnext : (s.pc + 2).toNat ≤ 4350 := add_two_toNat_le hpc
  cases ins with
  | jp nnn | call nnn =>
    have hlt := nnn.isLt
    exact (addrOperand_toNat nnn).trans_le (by omega)
  | jpV0 nnn =>
    have hlt := nnn.isLt
    have hlt0 := (s.reg 0).isLt
    exact (indexedTarget_toNat s nnn).trans_le (by omega)
  | ret =>
    have htop : (s.stack.getD (s.sp.val - 1) 0).toNat ≤ 4094 := by
      rw [getD_eq_dite]
      split
      · exact hstack _ _
      · simp
    exact add_two_toNat_le htop
  | seImm | sneImm | seReg | sneReg | skp | sknp => exact (skipWhen_pc_le hpc _).trans (by omega)
  | ldVxK x =>
    simp only [State.completed]
    cases lastPressed s with
    | none => exact hpc.trans (by omega)
    | some k => exact hnext
  | _ => exact hnext

/-- The one entry an instruction writes is the PC of a call. -/
theorem completed_stack_le (hpc : s.pc.toNat ≤ 4094) (hstack : ∀ j (h : j < 16), s.stack[j].toNat ≤ 4094)
    (ins : Instr) (j : Nat) (hj : j < 16) : (s.completed ins).stack[j].toNat ≤ 4094 := by
  cases ins with
  | call nnn =>
    simp only [State.completed]
    split
    next hfree =>
      rw [State.push_stack_getElem s s.pc hfree hj]
      split
      · exact hpc
      · exact hstack j hj
    next => exact hstack j hj
  | _ => exact hstack j hj

theorem State.Bounded.completed (h : s.Bounded) (hpc : s.pc.toNat ≤ 4094) (ins : Instr) : (s.completed ins).Bounded :=
  ⟨completed_mem_wf h.memory ins, completed_pc_le hpc h.stack ins, completed_stack_le hpc h.stack ins⟩

end

/-- Settles O3: a halted block idles; of a running one's four cases two fault with a record of R105's form and two tick,
which writes none of memory, PC and the stack. -/
theorem stepKeepsTheInvariant : Obligations.StepKeepsTheInvariant := by
  intro s t hinv hstep
  have hb := hinv.bounded
  have hp : s.phase ≠ .poisoned := (step_cases hstep).1
  obtain hh | hrun := halted_or_running hp
  · obtain rfl := Host.Outcome.next.inj ((step_of_halted hp hh).symm.trans hstep)
    obtain ⟨hphase, -⟩ := hinv.halted hh
    exact ⟨hinv.memory, hinv.pcBound, hinv.stackBound, hinv.record, fun _ => ⟨hphase, rfl⟩⟩
  have hb' (w : Word) : (s.atExecute w).Bounded := ⟨hb.memory, hb.pc, hb.stack⟩
  obtain ⟨-, h⟩ | ⟨-, -, h⟩ | ⟨ins, cause, info, -, -, hf, h⟩ | ⟨ins, hpc, -, -, h⟩ := step_of_running hrun <;>
    obtain rfl := Host.Outcome.next.inj (h.symm.trans hstep)
  · exact State.Bounded.inv_faulted (s := beginStep s) ⟨hb.memory, hb.pc, hb.stack⟩ rfl
      ⟨rfl, _, rfl, le_max_right _ _⟩
  · exact State.Bounded.inv_of_not_halted ⟨hb.memory, hb.pc, hb.stack⟩ hrun.1
  · exact (hb' _).inv_faulted rfl (wf_of_faultOf hf _ _)
  · obtain ⟨hmem, hpc', hstack⟩ := (hb' s.wordAtPc).completed hpc ins
    exact State.Bounded.inv_of_not_halted ⟨hmem, hpc', hstack⟩ ((completed_atExecute_halted s _ ins).trans hrun.1)

/-! ## Reset -/

theorem resetWith_bounded (font : Option Font) : (State.resetWith font).Bounded where
  memory := ⟨List.Pairwise.nil, nofun⟩
  pc := (by decide : (512 : Word).toNat ≤ 4350)
  stack j h := by simp [State.resetWith]

/-- Settles O2: reset leaves no listed cell, PC 512, a stack of zeros and no record. -/
theorem resetMeetsTheInvariant : Obligations.ResetMeetsTheInvariant :=
  fun font => (resetWith_bounded font).inv_of_not_halted rfl

/-- Settles O56: Reset keeps what is no state of the block, which the invariant does not speak of. -/
theorem hostResetIsConstruction : Obligations.HostResetIsConstruction := by
  intro s
  obtain ⟨hmem, hpc, hstack⟩ := resetWith_bounded s.mem.font
  exact ⟨hostReset s, rfl, rfl, State.Bounded.inv_of_not_halted ⟨hmem, hpc, hstack⟩ (hostReset_halted s)⟩

/-- An address reset lists nothing at reads as FONT at 0..79 and as 0 above (R34). -/
theorem resetWith_byteAt (font : Option Font) (a : Nat) :
    (State.resetWith font).byteAt a = if h : a < 80 then (font.getD Config.font)[a] else 0 := rfl

/-- Settles O1: the fields of `State.resetWith` one by one. -/
theorem resetLeavesTheListedState : Obligations.ResetLeavesTheListedState := by
  refine ⟨rfl, ?_⟩
  rintro font _ rfl
  refine ⟨fun r => ?_, rfl, rfl, rfl, fun j hj => ?_, fun a ha => ?_, fun a ha _ => ?_, fun k _ => pixelOf_blank k,
    fun k hk => ?_, rfl, rfl, rfl, rfl, rfl⟩
  · simp [State.reg, State.resetWith]
  · simp [State.resetWith]
  · rw [resetWith_byteAt, dif_pos ha]
  · rw [resetWith_byteAt, dif_neg (by omega)]
  · simp [State.keyDown, State.resetWith, getD_eq_dite]

/-! ## The host's accesses -/

theorem setKey_of_inRange (s : State) {k v : Nat} (hk : k < 16) (hv : v < 2) :
    setKey k v s = ({ s with keys := s.keys.set k (v == 1) hk }, .done) := dif_pos ⟨hk, hv⟩

theorem setKey_of_outOfRange (s : State) {k v : Nat} (h : 15 < k ∨ 1 < v) : setKey k v s = (s, .refused) :=
  dif_neg (by omega)

theorem readPixel_of_lt (s : State) {k : Nat} (h : k < 2048) : readPixel k s = .bit (s.pixel k) := if_pos h

theorem readPixel_of_ge (s : State) {k : Nat} (h : 2047 < k) : readPixel k s = .refused :=
  if_neg (Nat.not_lt.2 h)

/-- Settles O55: the two operations with an argument by its range; the others give a field. -/
theorem hostAccessesAreAsListed : Obligations.HostAccessesAreAsListed := by
  refine fun s => ⟨fun k v hk hv => ⟨_, setKey_of_inRange s hk hv, rfl, fun j hj => ?_⟩,
    fun _ _ => setKey_of_outOfRange s, fun _ hk => congrArg (s, ·) (readPixel_of_lt s hk),
    fun _ hk => congrArg (s, ·) (readPixel_of_ge s hk), rfl, rfl, rfl⟩
  simp only [State.keyDown, getD_eq_dite, hj, dite_true, Vector.getElem_set, eq_comm (a := j)]
  rfl

end Sys2Proof.Machine
end

section
/-! The random byte (R93), and two instructions in turn: a store and the fetch of its bytes (R52), a call and its return
(R69, R71), a block store and its load (R98, R99), a sprite drawn twice (R68). -/

namespace Sys2Proof.Machine

/-! ## CXNN -/

/-- Settles O27: RND is the host's byte where it gives one. -/
theorem randomByteIsMasked : Obligations.RandomByteIsMasked := by
  refine ⟨rowDecodes_rnd, fun s x nn => ?_⟩
  refine ⟨(s.setReg x (s.rnd &&& nn)).drawFresh.advance, s.rnd, rfl, fun b hb => ?_, fun r => s.reg_setReg x r _, rfl,
    fun _ => rfl⟩
  rw [State.rnd, hb, Option.getD_some]

/-! ## A store and a fetch -/

theorem fetch_withPc {s : State} {pc : Word} {a : Nat} (hpc : pc.toNat = a) (ha : a ≤ 4094) :
    fetch { s with pc := pc } = some (s.byteAt a ++ s.byteAt (a + 1)) := by
  subst hpc
  exact fetch_of_le ha

/-- The digits are the bytes from I on. -/
theorem digitsStored_byteAt {s : State} (hm : s.mem.wf) (hfits : s.i.toNat + 2 ≤ 4095) (x : RegIx) {k : Nat}
    (hk : k < 3) : (s.digitsStored x).byteAt (s.i.toNat + k) = (decimalDigits (s.reg x))[k] :=
  Memory.get_putBytes_inside hm (by simp only [decimalDigits_length]; omega) hk

/-- Settles O19: a stored byte reads back at its own address, where the fetch reads two. -/
theorem storedBytesAreFetched : Obligations.StoredBytesAreFetched := by
  refine ⟨fun s x hm hfits => ?_, fun s x hm hfits => ?_⟩
  · refine ⟨s.regsStored x, (exec_storeRegs s x).trans (withBytesAtI_of_fits _ _ hfits), fun pc k hk hpc => ?_⟩
    have hbyte {j : Nat} (hj : j ≤ x.toNat) : (s.regsStored x).byteAt (s.i.toNat + j) = s.reg (BitVec.ofNat 4 j) := by
      have hnat : (BitVec.ofNat 4 j).toNat = j := by
        rw [BitVec.toNat_ofNat]
        omega
      have hread := regsStored_byteAt_inside hm hfits (r := BitVec.ofNat 4 j) (by omega)
      rwa [hnat] at hread
    rw [fetch_withPc hpc (by omega), hbyte (by omega), Nat.add_assoc, hbyte hk]
  · refine ⟨s.digitsStored x, (exec_ldB s x).trans (withBytesAtI_of_fits _ _ hfits), ?_⟩
    rw [fetch_withPc rfl (by omega), digitsStored_byteAt hm hfits x (k := 1) (by decide)]
    rw [← Nat.add_zero s.i.toNat, digitsStored_byteAt hm hfits x (k := 0) (by decide)]
    rfl

/-! ## A call and its return -/

/-- Settles O33: the call left its own PC on top of the stack and SP one above its own. -/
theorem returnUndoesTheCall : Obligations.ReturnUndoesTheCall := by
  intro s t u nnn hfree hcall hsp hstack
  obtain rfl := Host.Outcome.next.inj ((exec_call_of_lt nnn hfree).symm.trans hcall)
  have hsp' : u.sp.val = s.sp.val + 1 := congrArg Fin.val hsp
  have htop : u.stack[s.sp.val] = s.pc := by
    simp only [hstack, State.setPc_stack, State.push_stack_getElem, if_true]
  refine ⟨_, exec_ret_of_succ hfree hsp', congrArg (· + 2) htop, Fin.ext (State.pop_sp_of_succ hsp'), rfl, rfl⟩

/-! ## A block store and its load -/

/-- Settles O39: the load reads the bytes the store wrote. -/
theorem loadAfterStoreRestoresRegisters : Obligations.LoadAfterStoreRestoresRegisters := by
  intro s t u x hm hfits hstore hmem hi
  obtain rfl := Host.Outcome.next.inj
    (((exec_storeRegs s x).trans (withBytesAtI_of_fits _ _ hfits)).symm.trans hstore)
  refine ⟨u.regsLoaded x, (exec_loadRegs u x).trans (withBytesAtI_of_fits _ _ (hi ▸ hfits)), fun r => ?_⟩
  rw [regsLoaded_reg]
  refine ite_congr rfl (fun hr => ?_) fun _ => rfl
  rw [State.byteAt, hmem, hi]
  exact regsStored_byteAt_inside hm hfits hr

/-! ## A sprite drawn twice -/

section
variable {s : State} {x y : RegIx} (n : Nibble)

/-- A draw whose X and Y are not F leaves what a second one reads: its coordinates, I and memory. -/
theorem drawn_drawn_pixel (hx : x ≠ VF) (hy : y ≠ VF) (k : Nat) :
    ((s.drawn x y n).drawn x y n).pixel k = s.pixel k := by
  rw [drawn_pixel, drawn_reg_other s x y n hx, drawn_reg_other s x y n hy, drawn_pixel s]
  have hxor (a b : Bool) : ((a ^^ b) ^^ b) = a := by rw [Bool.xor_assoc, Bool.xor_self, Bool.xor_false]
  exact hxor _ _

end

/-- Settles O46: the second draw toggles the same pixels; one that was clear is set in between, and then cleared. -/
theorem drawTwiceRestoresTheScreen : Obligations.DrawTwiceRestoresTheScreen := by
  intro s t x y n hx hy hdraw ht _
  obtain ⟨_, _, -, rfl⟩ | ⟨hf, rfl⟩ := exec_next_cases hdraw
  · simp at ht
  have hf' : faultOf (.drw x y n) (s.drawn x y n) = none := hf
  have hpixel := drawn_drawn_pixel (s := s) n hx hy
  refine ⟨_, exec_of_faultOf_none hf', framebuffer_ext fun k _ => hpixel k, fun hclear => ?_⟩
  rintro ⟨k, hk, hsprite⟩
  have hset : (s.drawn x y n).pixel k = true := by
    simpa [hclear k hk] using (drawn_pixel_ne_iff s x y n k).2 hsprite
  have hhit := (drawCanvas_hit_iff (s.drawn x y n) x y n).2 ⟨k, hk, hset, (hpixel k).trans (hclear k hk)⟩
  exact (drawn_reg_VF _ x y n).trans ((flag_eq_one_iff _).2 hhit)

end Sys2Proof.Machine
end
